-- ==== Sys2Proof/Word.lean ====
section
/-! DEFINITION. The word types of CVDSP: registers, byte offsets, command fields (00_scope.md R8, R9; 30_encoding.md R111). -/

namespace Sys2Proof

/-- A 32-bit register or command word (00_scope.md R8, "register width"). -/
abbrev Word := BitVec 32

/-- A byte lane of a register word (20_memory.md R83), and a smoothed pot reading (00_scope.md R8). -/
abbrev Byte := BitVec 8

/-- A raw pot reading, unsigned 16-bit (00_scope.md R8). -/
abbrev Half := BitVec 16

/-- A byte offset in the register window, 0x000..0x0FF (20_memory.md R80, R82). -/
abbrev Offset := BitVec 8

/-- The SEL field of a command word, bits 10:8 (30_encoding.md R111). -/
abbrev Sel := BitVec 3

/-- The FLAGS field of a command word, bits 15:12, F0 in bit 0 (30_encoding.md R111). -/
abbrev FlagBits := BitVec 4

end Sys2Proof
end

