-- ==== Sys2Proof/Config.lean ====
section
/-! DEFINITION. The OPEN parameters of 00_scope.md R8 and 92_eei_decisions.md ("Open parameters"): what an implementation
fixes. The spec says that a model takes them as arguments. The model carries them in `State.params`, which no step
changes, so that a statement about every state is a statement about every value of them (log 1). -/

namespace Sys2Proof.Config

/-- The named OPEN parameters (00_scope.md R8; 92_eei_decisions.md, "Open parameters"). -/
structure Params where
  /-- `P_BASE`: where the window sits on the host bus (20_memory.md R80). -/
  base : Nat
  /-- `P_SM_ALPHA`: reset value of SM0_ALPHA and SM1_ALPHA. -/
  smAlpha : Word
  /-- `P_SM_DEADBAND`: reset value of SM0_DEADBAND and SM1_DEADBAND. -/
  smDeadband : Word
  /-- `P_SL_SM_ALPHA`: reset value of SL_SM_ALPHA. -/
  slSmAlpha : Word
  /-- `P_SL_SM_DEADBAND`: reset value of SL_SM_DEADBAND. -/
  slSmDeadband : Word
  /-- `P_SL_TMAX_US`: reset value of SL_TMAX_US. -/
  slTmaxUs : Word
  /-- `P_SL_DENOM_MIN_US`: reset value of SL_DENOM_MIN_US. -/
  slDenomMinUs : Word
  /-- `P_ENV_CV_DZ_MV`: reset value of ENV_CV_DZ_MV. -/
  envCvDzMv : Word
  /-- `P_NZ_EXT_THRESH`: reset value of NZ_EXT_THRESH. -/
  nzExtThresh : Word
  /-- `P_NZ_PULSE_US`: reset value of NZ_PULSE_US. -/
  nzPulseUs : Word
  /-- `P_NZ_SEED`: reset value of NZ_SEED. -/
  nzSeed : Word
  deriving DecidableEq, Repr

/-- The legal ranges of 92_eei_decisions.md ("Open parameters"): a reset value lies in its register's legal set
(10_state.md R40), and the window base is 256-byte aligned. -/
abbrev Params.Legal (p : Params) : Prop :=
  p.base % 256 = 0 ∧ p.smAlpha.toNat ≤ 32768 ∧ p.smDeadband.toNat < 2 ^ 31 ∧
    p.slSmAlpha.toNat ≤ 32768 ∧ p.slSmDeadband.toNat < 2 ^ 31 ∧
    p.envCvDzMv.toNat ≤ 4999 ∧ p.nzExtThresh.toNat ≤ 65535

/-- The values `State.reset` gives the OPEN parameters: the test values of 92_eei_decisions.md, the only ones the spec
names. DESIGN CHOICE, unsafe (log 1): the spec says that they are no claim about the firmware. -/
def resetParams : Params where
  base := 0
  smAlpha := 8192
  smDeadband := 2
  slSmAlpha := 32768
  slSmDeadband := 0
  slTmaxUs := 1000000
  slDenomMinUs := 1000
  envCvDzMv := 500
  nzExtThresh := 60000
  nzPulseUs := 10000
  nzSeed := 1

end Sys2Proof.Config
end

