-- ==== Sys2Proof/Syntax.lean ====
section
/-! DEFINITION. The commands of CVDSP: one constructor per row of the opcode map (30_encoding.md R112). -/

namespace Sys2Proof

/-- A command. A `sel` is the raw SEL field of the rows that take one (30_encoding.md R113); its legal range is checked by
`Instr.wf`. A Bool is an event flag of 30_encoding.md R114. -/
inductive Instr where
  /-- NOP (30_encoding.md R121). -/
  | nop
  /-- CLAMP (40_kernel.md R150). -/
  | clamp
  /-- MULQ15 (40_kernel.md R151). -/
  | mulq15
  /-- BLENDQ15 (40_kernel.md R152). -/
  | blendq15
  /-- U8TOQ15 (40_kernel.md R153). -/
  | u8toq15
  /-- SM.PROCESS.n (41_smoother.md R175); `sel` selects SM0 or SM1. -/
  | smProcess (sel : Sel)
  /-- SM.RESET.n (41_smoother.md R176); `sel` selects SM0 or SM1. -/
  | smReset (sel : Sel)
  /-- SL.STEP (42_slew.md R200); F0 = TOGGLE_LINK. -/
  | slStep (toggleLink : Bool)
  /-- ENV.TICK (43_envelope.md R230); F0 = TRIG, F1 = CVMOD. -/
  | envTick (trig cvmod : Bool)
  /-- NZ.TICK (44_noise.md R270); F0 = CLK, F1 = HOLD. -/
  | nzTick (clk hold : Bool)
  /-- NZ.DRAW (44_noise.md R271). -/
  | nzDraw
  /-- NZ.QUANT.s (44_noise.md R272); `sel` is the scale index. -/
  | nzQuant (sel : Sel)
  deriving DecidableEq, Repr

/-- The operations of the opcode map (30_encoding.md R112), one per OP value in use. -/
inductive Op where
  | nop | clamp | mulq15 | blendq15 | u8toq15 | smProcess | smReset | slStep | envTick | nzTick | nzDraw | nzQuant
  deriving DecidableEq, Repr

end Sys2Proof
end

