-- ==== Sys2Proof/WellFormed.lean ====
section
/-! DEFINITION. Which command terms the encoding admits (30_encoding.md R112, R113). -/

namespace Sys2Proof

/-- A command term is well formed when its SEL is within the row's SELMAX: 0..1 for the smoother commands, 0..5 for
NZ.QUANT (30_encoding.md R113). The other rows carry only fields that every value of is legal. -/
def Instr.wf : Instr → Bool
  | .smProcess sel => decide (sel.toNat ≤ 1)
  | .smReset sel => decide (sel.toNat ≤ 1)
  | .nzQuant sel => decide (sel.toNat ≤ 5)
  | .nop => true
  | .clamp => true
  | .mulq15 => true
  | .blendq15 => true
  | .u8toq15 => true
  | .slStep _ => true
  | .envTick _ _ => true
  | .nzTick _ _ => true
  | .nzDraw => true

end Sys2Proof
end

