-- ==== Sys2Proof/Decode.lean ====
section
/-! DEFINITION. Decoding and encoding of command words (30_encoding.md R110 to R117). The decoder is total on words and
on bytes and names the reason of every word it refuses; the machine raises IllegalCommand for each of them alike
(30_encoding.md R117, 60_exceptions.md R294). -/

namespace Sys2Proof

/-- Why a word is no command (30_encoding.md R117). The machine's effect is the same for every reason (60_exceptions.md
R294), so the order in which `decode` tests them is invisible (log 9). -/
inductive DecodeError where
  /-- Bit 11 or a bit of 31:16 is set (30_encoding.md R115). -/
  | reservedBits
  /-- OP is not in the opcode map (30_encoding.md R112). -/
  | reservedOp
  /-- SEL is above the row's SELMAX (30_encoding.md R113). -/
  | selOutOfRange
  /-- A FLAGS bit outside the row's FLAGMASK is set (30_encoding.md R114). -/
  | flagNotAllowed
  /-- Not the four bytes of one command word (30_encoding.md R111: one command length, 32 bits). -/
  | notFourBytes
  deriving DecidableEq, Repr

/-! ## Fields of a command word (30_encoding.md R111) -/

/-- OP, bits 7:0. -/
def opField (w : Word) : BitVec 8 := w.extractLsb' 0 8

/-- SEL, bits 10:8. -/
def selField (w : Word) : Sel := w.extractLsb' 8 3

/-- Bit 11, reserved. -/
def reservedBit11 (w : Word) : Bool := w.getLsbD 11

/-- FLAGS, bits 15:12. -/
def flagsField (w : Word) : FlagBits := w.extractLsb' 12 4

/-- Bits 31:16, reserved. -/
def reservedHigh (w : Word) : Half := w.extractLsb' 16 16

/-! ## The opcode map (30_encoding.md R112) -/

/-- The OP column. -/
def Op.code : Op → BitVec 8
  | .nop => 0x00
  | .clamp => 0x01
  | .mulq15 => 0x02
  | .blendq15 => 0x03
  | .u8toq15 => 0x04
  | .smProcess => 0x10
  | .smReset => 0x11
  | .slStep => 0x20
  | .envTick => 0x30
  | .nzTick => 0x40
  | .nzDraw => 0x41
  | .nzQuant => 0x42

/-- The SELMAX column. -/
def Op.selMax : Op → Nat
  | .smProcess => 1
  | .smReset => 1
  | .nzQuant => 5
  | .nop => 0
  | .clamp => 0
  | .mulq15 => 0
  | .blendq15 => 0
  | .u8toq15 => 0
  | .slStep => 0
  | .envTick => 0
  | .nzTick => 0
  | .nzDraw => 0

/-- The FLAGMASK column. -/
def Op.flagMask : Op → FlagBits
  | .slStep => 0x1
  | .envTick => 0x3
  | .nzTick => 0x3
  | .nop => 0x0
  | .clamp => 0x0
  | .mulq15 => 0x0
  | .blendq15 => 0x0
  | .u8toq15 => 0x0
  | .smProcess => 0x0
  | .smReset => 0x0
  | .nzDraw => 0x0
  | .nzQuant => 0x0

/-- The match column. -/
def Op.pattern : Op → Word
  | .nop => 0x00000000
  | .clamp => 0x00000001
  | .mulq15 => 0x00000002
  | .blendq15 => 0x00000003
  | .u8toq15 => 0x00000004
  | .smProcess => 0x00000010
  | .smReset => 0x00000011
  | .slStep => 0x00000020
  | .envTick => 0x00000030
  | .nzTick => 0x00000040
  | .nzDraw => 0x00000041
  | .nzQuant => 0x00000042

/-- The mask column. -/
def Op.mask : Op → Word
  | .nop => 0xFFFFFFFF
  | .clamp => 0xFFFFFFFF
  | .mulq15 => 0xFFFFFFFF
  | .blendq15 => 0xFFFFFFFF
  | .u8toq15 => 0xFFFFFFFF
  | .smProcess => 0xFFFFFEFF
  | .smReset => 0xFFFFFEFF
  | .slStep => 0xFFFFEFFF
  | .envTick => 0xFFFFCFFF
  | .nzTick => 0xFFFFCFFF
  | .nzDraw => 0xFFFFFFFF
  | .nzQuant => 0xFFFFF8FF

/-- The rows of the opcode map, in the table's order. -/
def Op.all : List Op :=
  [.nop, .clamp, .mulq15, .blendq15, .u8toq15, .smProcess, .smReset, .slStep, .envTick, .nzTick, .nzDraw, .nzQuant]

/-- The row an OP value selects; none for a reserved OP. -/
def opOfCode (c : BitVec 8) : Option Op := Op.all.find? fun o => o.code == c

/-- A word is a legal command of row `o`: `(w AND mask) = match`, plus the SEL bound (R112; only NZ.QUANT's mask leaves
SEL values above its SELMAX). -/
abbrev Op.Matches (o : Op) (w : Word) : Prop := w &&& o.mask = o.pattern ∧ (selField w).toNat ≤ o.selMax

/-! ## Decoding (30_encoding.md R110) -/

/-- The command of a row with the given SEL and FLAGS (R113, R114). -/
def instrOf (o : Op) (sel : Sel) (flags : FlagBits) : Instr :=
  match o with
  | .nop => .nop
  | .clamp => .clamp
  | .mulq15 => .mulq15
  | .blendq15 => .blendq15
  | .u8toq15 => .u8toq15
  | .smProcess => .smProcess sel
  | .smReset => .smReset sel
  | .slStep => .slStep (flags.getLsbD 0)
  | .envTick => .envTick (flags.getLsbD 0) (flags.getLsbD 1)
  | .nzTick => .nzTick (flags.getLsbD 0) (flags.getLsbD 1)
  | .nzDraw => .nzDraw
  | .nzQuant => .nzQuant sel

/-- The command a word stands for, or why it is illegal: the tests of `Execute` (R110). -/
def decode (w : Word) : Except DecodeError Instr :=
  if reservedHigh w ≠ 0 ∨ reservedBit11 w = true then .error .reservedBits
  else
    match opOfCode (opField w) with
    | none => .error .reservedOp
    | some o =>
      if o.selMax < (selField w).toNat then .error .selOutOfRange
      else if flagsField w &&& ~~~ o.flagMask ≠ 0 then .error .flagNotAllowed
      else .ok (instrOf o (selField w) (flagsField w))

/-- The word whose byte lanes, lowest address first, are the given bytes: little-endian (20_memory.md R83). -/
def wordOfLanes (b0 b1 b2 b3 : Byte) : Word := b3 ++ b2 ++ b1 ++ b0

/-- Byte lane `k` (0..3) of a register word: bits [8k+7:8k] (20_memory.md R83). -/
def byteLane (w : Word) (k : Nat) : Byte := w.extractLsb' (8 * k) 8

/-- The four byte lanes of a word, lowest address first (20_memory.md R83). -/
def lanesOfWord (w : Word) : List Byte := [byteLane w 0, byteLane w 1, byteLane w 2, byteLane w 3]

/-- Decoding of the bytes a host lays out in its own memory for one command word. -/
def decodeBytes (bs : List Byte) : Except DecodeError Instr :=
  match bs with
  | [b0, b1, b2, b3] => decode (wordOfLanes b0 b1 b2 b3)
  | _ => .error .notFourBytes

/-- The word with bits `w` below bit `nbits` and 0 above, as the opcode table numbers bits (bit 0 least significant). -/
def tableWord (nbits w : Nat) : Word := BitVec.ofNat 32 (w % 2 ^ nbits)

/-- What the decoder reads from the instruction whose bits are `w` in the opcode table's numbering: its four byte lanes in
the hardware's order are given to the decoder (log 17). -/
def decodeTableWord (nbits w : Nat) : Option Instr :=
  match decodeBytes (lanesOfWord (tableWord nbits w)) with
  | .ok i => some i
  | .error _ => none

/-! ## Encoding (30_encoding.md R111 to R114, R119) -/

/-- The row a command belongs to. -/
def Instr.op : Instr → Op
  | .nop => .nop
  | .clamp => .clamp
  | .mulq15 => .mulq15
  | .blendq15 => .blendq15
  | .u8toq15 => .u8toq15
  | .smProcess _ => .smProcess
  | .smReset _ => .smReset
  | .slStep _ => .slStep
  | .envTick _ _ => .envTick
  | .nzTick _ _ => .nzTick
  | .nzDraw => .nzDraw
  | .nzQuant _ => .nzQuant

/-- The SEL field of a command's word: 0 where the row takes no select (R113). -/
def Instr.selBits : Instr → Sel
  | .smProcess sel => sel
  | .smReset sel => sel
  | .nzQuant sel => sel
  | .nop => 0
  | .clamp => 0
  | .mulq15 => 0
  | .blendq15 => 0
  | .u8toq15 => 0
  | .slStep _ => 0
  | .envTick _ _ => 0
  | .nzTick _ _ => 0
  | .nzDraw => 0

/-- Two event flags as FLAGS bits: F0 in bit 0 of the field (word bit 12), F1 in bit 1 (word bit 13) (R114). -/
def eventFlags (f0 f1 : Bool) : FlagBits := (BitVec.ofBool f1 ++ BitVec.ofBool f0).setWidth 4

/-- The FLAGS field of a command's word (R114). -/
def Instr.flagBits : Instr → FlagBits
  | .slStep toggleLink => eventFlags toggleLink false
  | .envTick trig cvmod => eventFlags trig cvmod
  | .nzTick clk hold => eventFlags clk hold
  | .nop => 0
  | .clamp => 0
  | .mulq15 => 0
  | .blendq15 => 0
  | .u8toq15 => 0
  | .smProcess _ => 0
  | .smReset _ => 0
  | .nzDraw => 0
  | .nzQuant _ => 0

/-- The command word with the given fields and 0 in every reserved bit: `OP | SEL<<8 | flagbits<<12` (R119). -/
def assembleWord (op : BitVec 8) (sel : Sel) (flags : FlagBits) : Word :=
  op.setWidth 32 ||| (sel.setWidth 32 <<< 8) ||| (flags.setWidth 32 <<< 12)

/-- The word of a command. A term whose SEL is out of range has a word too, which is illegal (R117). -/
def encode (i : Instr) : Word := assembleWord i.op.code i.selBits i.flagBits

end Sys2Proof
end

