-- ==== Sys2Proof/Machine/State.lean ====
section
/-! DEFINITION. The state of CVDSP (10_state.md), the host's accesses (20_memory.md R82, R96), and the state after reset
(10_state.md R70). -/

namespace Sys2Proof.Machine

/-- The three access sizes a host bus offers, in bytes (20_memory.md R82; log 4). -/
inductive Size where
  /-- one byte -/
  | byte
  /-- two bytes -/
  | half
  /-- four bytes, the only legal size -/
  | word
  deriving DecidableEq, Repr

/-- One interaction of the host with the block (20_memory.md R82, R96). -/
inductive Access where
  /-- `MemRead(off, n)`. -/
  | read (off : Offset) (n : Size)
  /-- `MemWrite(off, n, v)`; a write that is not legal does not use v (log 13). -/
  | write (off : Offset) (n : Size) (v : Word)
  /-- The platform asserts and releases reset (70_reset_and_hazards.md R310). -/
  | reset
  deriving DecidableEq, Repr

/-- Four 32-bit registers: ARG0..ARG3 or RES0..RES3 (10_state.md R35, R36). -/
structure Quad where
  r0 : Word
  r1 : Word
  r2 : Word
  r3 : Word
  deriving DecidableEq, Repr

/-- The configuration registers (10_state.md R40). -/
structure CfgRegs where
  sm0Alpha : Word
  sm0Deadband : Word
  sm1Alpha : Word
  sm1Deadband : Word
  slSmAlpha : Word
  slSmDeadband : Word
  slTmaxUs : Word
  slDenomMinUs : Word
  slFullrangeMv : Word
  envTminUs : Word
  envTmaxUs : Word
  envCvDzMv : Word
  nzTminUs : Word
  nzTmaxUs : Word
  nzExtThresh : Word
  nzPulseUs : Word
  /-- NZ_SEED, also the noise generator's PRNG state (10_state.md R60). -/
  nzSeed : Word
  deriving DecidableEq, Repr

/-- One voltage smoother instance (10_state.md R50). -/
structure Smoother where
  /-- 0: the next process call is a first call. -/
  init : Bool
  /-- The held output, signed, in mV. -/
  out : Word
  deriving DecidableEq, Repr

/-- The slew limiter (10_state.md R51), with its two output smoothers SLSMA and SLSMB. -/
structure Slew where
  cur0 : Word
  cur1 : Word
  linked : Bool
  last : Word
  smA : Smoother
  smB : Smoother
  deriving DecidableEq, Repr

/-- The stages of the AD envelope (10_state.md R52). The code 3 is never reached (93_implementation_defined.md I33; log 10). -/
inductive Stage where
  | idle
  | attack
  | decay
  deriving DecidableEq, Repr

/-- The AD envelope generator (10_state.md R52). -/
structure Env where
  stage : Stage
  value : Word
  start : Word
  dur : Word
  deriving DecidableEq, Repr

/-- The musical scales, indices 0..5 in this order (44_noise.md R250). -/
inductive Scale where
  | unquantized
  | chromatic
  | major
  | minor
  | pentatonic
  | wholeTone
  deriving DecidableEq, Repr

/-- The noise generator but for its seed, which is NZ_SEED (10_state.md R53, R60). -/
structure Noise where
  last0 : Word
  last1 : Word
  cur0 : Word
  cur1 : Word
  scale : Scale
  armedUntil : Word
  armed : Bool
  deriving DecidableEq, Repr

/-- The whole machine: the block's registers and engine state (10_state.md R30), and three fields of the model's own. There
is no memory behind the window (20_memory.md R80; log 7). -/
structure State where
  /-- CMD (10_state.md R31). -/
  cmd : Word
  /-- STATUS (10_state.md R32). -/
  status : Word
  /-- ERR_CMD (10_state.md R33). -/
  errCmd : Word
  /-- ERR_ADDR (10_state.md R34). -/
  errAddr : Word
  /-- ARG0..ARG3 (10_state.md R35). -/
  arg : Quad
  /-- RES0..RES3 (10_state.md R36). -/
  res : Quad
  /-- The configuration registers (10_state.md R40). -/
  cfg : CfgRegs
  /-- The free smoother SM0 (10_state.md R50). -/
  sm0 : Smoother
  /-- The free smoother SM1 (10_state.md R50). -/
  sm1 : Smoother
  /-- The slew limiter (10_state.md R51). -/
  sl : Slew
  /-- The AD envelope generator (10_state.md R52). -/
  env : Env
  /-- The noise generator (10_state.md R53). -/
  nz : Noise
  /-- MODEL: the OPEN parameters, which no step changes (log 1). -/
  params : Config.Params
  /-- MODEL: the host's accesses still to come, oldest first (20_memory.md R90; log 2). -/
  pending : List Access
  /-- MODEL: the values the host's reads have returned, oldest first (20_memory.md R97; log 2). -/
  readLog : List Word
  deriving DecidableEq, Repr

/-- The reasons a step could stop with a fault: none. The block "has no fatal-error path" (introduction of
60_exceptions.md); its two errors are recorded in STATUS and the host goes on (60_exceptions.md R290, R297), so they are
next states (log 8). -/
inductive Fault
  deriving DecidableEq, Repr

/-- The reasons a step could be refused. -/
inductive Refusal where
  /-- An instruction without a meaning in this model, raised by its arm of `exec` alone. Every instruction has its meaning,
  so nothing raises it. Safe: the model stops. -/
  | notModelled (mnemonic : String)
  deriving DecidableEq, Repr

/-- What a step of the machine gives. -/
abbrev Result := Host.Outcome State Fault Refusal

/-- A smoother after reset: the next process call is a first call (10_state.md R70). -/
def Smoother.fresh : Smoother := { init := false, out := 0 }

/-- The configuration registers after reset: the values of 10_state.md R40, OPEN parameters from `p`. -/
def CfgRegs.reset (p : Config.Params) : CfgRegs where
  sm0Alpha := p.smAlpha
  sm0Deadband := p.smDeadband
  sm1Alpha := p.smAlpha
  sm1Deadband := p.smDeadband
  slSmAlpha := p.slSmAlpha
  slSmDeadband := p.slSmDeadband
  slTmaxUs := p.slTmaxUs
  slDenomMinUs := p.slDenomMinUs
  slFullrangeMv := 10000
  envTminUs := 1000
  envTmaxUs := 5000000
  envCvDzMv := p.envCvDzMv
  nzTminUs := 1000
  nzTmaxUs := 2000000
  nzExtThresh := p.nzExtThresh
  nzPulseUs := p.nzPulseUs
  nzSeed := p.nzSeed

/-- The machine right after reset with OPEN parameters `p` (10_state.md R70), no access pending and none performed. -/
def State.resetWith (p : Config.Params) : State where
  cmd := 0
  status := 0
  errCmd := 0
  errAddr := 0
  arg := { r0 := 0, r1 := 0, r2 := 0, r3 := 0 }
  res := { r0 := 0, r1 := 0, r2 := 0, r3 := 0 }
  cfg := CfgRegs.reset p
  sm0 := Smoother.fresh
  sm1 := Smoother.fresh
  sl := { cur0 := 0, cur1 := 0, linked := false, last := 0, smA := Smoother.fresh, smB := Smoother.fresh }
  env := { stage := .idle, value := 0, start := 0, dur := 0 }
  nz := { last0 := 0, last1 := 0, cur0 := 5000, cur1 := 5000, scale := .unquantized, armedUntil := 0, armed := false }
  params := p
  pending := []
  readLog := []

/-- The machine right after reset (10_state.md R70), the OPEN parameters at the values of log 1. -/
def State.reset : State := State.resetWith Config.resetParams

end Sys2Proof.Machine
end

