-- ==== Sys2Proof/Machine/Flags.lean ====
section
/-! DEFINITION. The block's only flags: the two sticky error bits of STATUS (10_state.md R32, R38; 60_exceptions.md R290).
No command computes a carry, overflow, zero or sign flag. -/

namespace Sys2Proof.Machine

/-- The two error causes (60_exceptions.md R290). -/
inductive ErrorCause where
  /-- Code 0, STATUS bit 0, raised by an illegal word written to CMD. -/
  | illegalCmd
  /-- Code 1, STATUS bit 1, raised by a bus access that is not legal. -/
  | badAccess
  deriving DecidableEq, Repr

/-- The code of a cause: its bit number in STATUS (60_exceptions.md R290). -/
def errorCode : ErrorCause → Nat
  | .illegalCmd => 0
  | .badAccess => 1

/-- The STATUS mask of a cause. -/
def statusBit (c : ErrorCause) : Word := 1#32 <<< errorCode c

/-- The implemented bits of STATUS, 1:0; bits 31:2 are reserved (10_state.md R32). -/
def statusMask : Word := 0x3

/-- What a read of STATUS returns: reserved bits read 0 (10_state.md R32; log 12). -/
def statusRead (status : Word) : Word := status &&& statusMask

/-- STATUS after a cause sets its sticky bit (60_exceptions.md R291, R292). -/
def statusSet (c : ErrorCause) (status : Word) : Word := status ||| statusBit c

/-- STATUS after a host write of v: `STATUS AND NOT (v AND 0x3)`, write 1 to clear (10_state.md R32). -/
def statusWrite (v status : Word) : Word := status &&& ~~~ (v &&& statusMask)

/-- A flag or a small field as a 32-bit word, zero-extended: bit 0 of the result is the flag (10_state.md R63). -/
def flagWord (b : Bool) : Word := (BitVec.ofBool b).setWidth 32

end Sys2Proof.Machine
end

