-- ==== Sys2Proof/Machine/Arith.lean ====
section
/-! DEFINITION. The arithmetic of the spec: the primitives of 00_scope.md R10 and the kernel functions of 40_kernel.md on
exact integers (00_scope.md R9). -/

namespace Sys2Proof.Machine

/-! ## Primitives (00_scope.md R10) -/

/-- `u32(v)`: the 32-bit pattern of an integer. -/
def u32 (v : Int) : Word := BitVec.ofInt 32 v

/-- `s32(p)`: a 32-bit pattern read as two's complement. -/
def s32 (p : Word) : Int := p.toInt

/-- A 32-bit pattern read unsigned. -/
def unsigned (p : Word) : Int := (p.toNat : Int)

/-- `wrap32(v)`. -/
def wrap32 (v : Int) : Int := s32 (u32 v)

/-- `zext_32` of a narrower field. -/
def zext32 {n : Nat} (v : BitVec n) : Word := v.setWidth 32

/-- `sgn(v)`. -/
def sgn (v : Int) : Int := v.sign

/-- `|v|`. -/
def absInt (v : Int) : Int := (v.natAbs : Int)

/-- `tdiv(a, b)`, division truncating toward zero, used for b > 0. -/
def tdiv (a b : Int) : Int := Int.tdiv a b

/-- `a div b`, floor division, used for a ≥ 0 and b > 0. -/
def floorDiv (a b : Int) : Int := a / b

/-! ## Kernel functions (40_kernel.md section 1) -/

/-- The Q15 one (00_scope.md R8, R11). -/
def q15One : Int := 32768

/-- `clamp(v, lo, hi)`, the tests in this order (40_kernel.md R140). -/
def clamp (v lo hi : Int) : Int :=
  if v < lo then lo
  else if hi < v then hi
  else v

/-- `mulQ15(value, gain)`, truncating toward zero (40_kernel.md R142). -/
def mulQ15 (value gain : Int) : Int := tdiv (value * gain) 32768

/-- `blendQ15(a, b, t)`, truncating toward zero; t is not clamped (40_kernel.md R143). -/
def blendQ15 (a b t : Int) : Int := tdiv (a * (32768 - t) + b * t) 32768

/-- `u8ToQ15(v)` (40_kernel.md R144). -/
def u8ToQ15 (v : Int) : Int :=
  if v ≤ 0 then 0
  else if 255 ≤ v then 32768
  else floorDiv (v * 32768 + 127) 255

/-- The cubic pot curve (40_kernel.md R145). -/
def potCurve (p : Int) : Int := mulQ15 (mulQ15 (u8ToQ15 p) (u8ToQ15 p)) (u8ToQ15 p)

/-- A pot as a time in µs along the cubic curve (40_kernel.md R146). -/
def potDuration (p tmin tmax : Int) : Int := tmin + mulQ15 (tmax - tmin) (potCurve p)

/-- `elapsed(now, t0)`, the unsigned 32-bit difference (40_kernel.md R147). -/
def elapsed (now t0 : Word) : Int := unsigned (now - t0)

/-- `isActive(until, now)`, the signed 32-bit difference (40_kernel.md R147). -/
def isActive (deadline now : Word) : Bool := decide (0 < s32 (deadline - now))

end Sys2Proof.Machine
end

