-- ==== Sys2Proof/Machine/Operands.lean ====
section
/-! DEFINITION. Every operand form of 30_encoding.md R116: signed and unsigned ARG registers, pot bytes, raw pot halfwords,
and configuration registers. -/

namespace Sys2Proof.Machine

/-- `sARG[0]` (00_scope.md R10). -/
def sArg0 (s : State) : Int := s32 s.arg.r0

/-- `sARG[1]`. -/
def sArg1 (s : State) : Int := s32 s.arg.r1

/-- `sARG[2]`. -/
def sArg2 (s : State) : Int := s32 s.arg.r2

/-- Bits 7:0 of an operand register, read unsigned: the first pot of a command (30_encoding.md R116). -/
def pot0 (w : Word) : Int := ((byteLane w 0).toNat : Int)

/-- Bits 15:8 of an operand register, read unsigned: the second pot of a command. -/
def pot1 (w : Word) : Int := ((byteLane w 1).toNat : Int)

/-- Bits 23:16 of an operand register, read unsigned: the third pot of a command. -/
def pot2 (w : Word) : Int := ((byteLane w 2).toNat : Int)

/-- Bits 15:0 of an operand register, read unsigned: raw pot A (30_encoding.md R116). -/
def rawLow (w : Word) : Int := ((w.extractLsb' 0 16).toNat : Int)

/-- Bits 31:16 of an operand register, read unsigned: raw pot B. -/
def rawHigh (w : Word) : Int := ((w.extractLsb' 16 16).toNat : Int)

/-- `cfg.NAME` as an integer: every legal value of a configuration register is non-negative (10_state.md R40), so its
stored pattern is read unsigned (log 11). -/
def cfgVal (w : Word) : Int := unsigned w

end Sys2Proof.Machine
end

