-- ==== Sys2Proof/Machine/Ops.lean ====
section
/-! DEFINITION. The named operations over registers: writing results, raising an error and clearing it, performing host
bookkeeping, reset. -/

namespace Sys2Proof.Machine

/-! ## Results (10_state.md R36) -/

/-- A command writes all four RES registers (10_state.md R36). -/
def writeRes (r0 r1 r2 r3 : Word) (s : State) : State := { s with res := { r0 := r0, r1 := r1, r2 := r2, r3 := r3 } }

/-- `RES[0] <- v`, narrowed to 32 bits, and 0 to the RES registers a rule does not list (10_state.md R36; 40_kernel.md
R141). -/
def writeResult (v : Int) (s : State) : State := writeRes (u32 v) 0 0 0 s

/-! ## Taking an error, and the return from one (60_exceptions.md) -/

/-- Raising an error, the block's one exception entry (60_exceptions.md R290 to R292, R297): the cause's STATUS bit is set
and stays set, its information register takes `info`, and nothing else changes: no mode, no mask, no control transfer. -/
def raiseError (c : ErrorCause) (info : Word) (s : State) : State :=
  match c with
  | .illegalCmd => { s with status := statusSet .illegalCmd s.status, errCmd := info }
  | .badAccess => { s with status := statusSet .badAccess s.status, errAddr := info }

/-- `raise IllegalCommand(w)` (60_exceptions.md R291). -/
def raiseIllegalCommand (w : Word) (s : State) : State := raiseError .illegalCmd w s

/-- `raise BadAccess(off)` (60_exceptions.md R292). -/
def raiseBadAccess (off : Offset) (s : State) : State := raiseError .badAccess (zext32 off) s

/-- The nearest thing to a return from an error: the host's write of v to STATUS clears bits; ERR_CMD and ERR_ADDR keep
their values (60_exceptions.md R298; 10_state.md R32). -/
def clearErrors (v : Word) (s : State) : State := { s with status := statusWrite v s.status }

/-- A command term runs when its SEL is legal; otherwise it is an illegal command, whose word IllegalCommand records
(30_encoding.md R117; the Exceptions line of each command; log 6). -/
def runIfLegal (i : Instr) (run : State → State) (s : State) : Result :=
  if (i.selBits).toNat ≤ i.op.selMax then .next (run s)
  else .next (raiseIllegalCommand (encode i) s)

/-! ## Registers that accesses write -/

/-- CMD takes the written word, legal or not (10_state.md R31). -/
def storeCmd (w : Word) (s : State) : State := { s with cmd := w }

/-- NZ_SEED takes a new seed (10_state.md R60). -/
def storeSeed (x : Word) (s : State) : State := { s with cfg := { s.cfg with nzSeed := x } }

/-! ## The host's accesses (20_memory.md R90, R97; log 2) -/

/-- A read returns a value to the host: it joins the observation of the run (20_memory.md R97). -/
def returnValue (v : Word) (s : State) : State := { s with readLog := s.readLog ++ [v] }

/-- The accesses still to come. -/
def setPending (l : List Access) (s : State) : State := { s with pending := l }

/-- The host's next access is a legal 32-bit write of w to CMD (20_memory.md R82). -/
def queueCommandWrite (w : Word) (s : State) : State := setPending (.write 0x00 .word w :: s.pending) s

/-! ## Reset (70_reset_and_hazards.md R310) -/

/-- Reset: every register and every item of engine state takes its reset value; no command runs and no error is raised.
The OPEN parameters, the host's later accesses and what the host has read are not the block's (log 5). -/
def resetBlock (s : State) : State :=
  { State.resetWith s.params with pending := s.pending, readLog := s.readLog }

end Sys2Proof.Machine
end

