-- ==== Sys2Proof/Machine/Control.lean ====
section
/-! DEFINITION. NOP (30_encoding.md R121). -/

namespace Sys2Proof.Machine

/-- NOP: `Execute` returns at once; nothing changes (30_encoding.md R110, R121). -/
def execNop (s : State) : Result := .next s

end Sys2Proof.Machine
end

