-- ==== Sys2Proof/Machine/Envelope.lean ====
section
/-! DEFINITION. Family 3, the AD envelope generator (43_envelope.md). -/

namespace Sys2Proof.Machine

/-- The code of a stage (10_state.md R52). -/
def stageCode : Stage → Word
  | .idle => 0
  | .attack => 1
  | .decay => 2

/-- The fraction of the modulation range beyond the dead zone, Q15 (43_envelope.md R223). -/
def cvFrac (mag dz : Int) : Int := floorDiv ((mag - dz) * 32768) (5000 - dz)

/-- `cvModulate(base, cvIn)`: halving at full positive CV, doubling at full negative CV (43_envelope.md R223;
90_conflicts.md C4). -/
def cvModulate (cfg : CfgRegs) (base cvIn : Int) : Int :=
  let cv := clamp cvIn (-5000) 5000
  let dz := cfgVal cfg.envCvDzMv
  let d :=
    if dz < cv then base - tdiv (mulQ15 base (cvFrac cv dz)) 2
    else if cv < -dz then base + mulQ15 base (cvFrac (-cv) dz)
    else base
  clamp d (cfgVal cfg.envTminUs) (cfgVal cfg.envTmaxUs)

/-- A stage duration from a pot (43_envelope.md R222). -/
def envDuration (cfg : CfgRegs) (pot : Int) : Int := potDuration pot (cfgVal cfg.envTminUs) (cfgVal cfg.envTmaxUs)

/-- `attackDuration` (43_envelope.md R222). -/
def attackDuration (cvmod : Bool) (s : State) : Int :=
  if cvmod then cvModulate s.cfg (envDuration s.cfg (pot0 s.arg.r1)) (sArg2 s)
  else envDuration s.cfg (pot0 s.arg.r1)

/-- `decayDuration` (43_envelope.md R222). -/
def decayDuration (s : State) : Int := envDuration s.cfg (pot1 s.arg.r1)

/-- `attackShape(x)` (43_envelope.md R225). -/
def attackShape (shapeQ x : Int) : Int := blendQ15 x (mulQ15 x x) shapeQ

/-- `decayShape(x)` (43_envelope.md R225). -/
def decayShape (shapeQ x : Int) : Int :=
  32768 - blendQ15 x (32768 - mulQ15 (32768 - x) (32768 - x)) shapeQ

/-- The progress x inside a stage (43_envelope.md R224). -/
def envProgress (now : Word) (env : Env) : Int :=
  floorDiv (elapsed now env.start * 32768) (unsigned env.dur)

/-- The stage has run its duration: the test that comes before any division (43_envelope.md R227, R228). -/
def stageOver (now : Word) (env : Env) : Bool := decide (unsigned env.dur ≤ elapsed now env.start)

/-- What a tick gives: the engine's next state and the end-of-cycle flag (43_envelope.md R221). -/
structure EnvTickResult where
  env : Env
  eoc : Bool
  deriving DecidableEq, Repr

/-- A trigger tick, from any stage (43_envelope.md R226). -/
def envTrigger (cvmod : Bool) (s : State) : EnvTickResult where
  env := { stage := .attack, value := 0, start := s.arg.r0, dur := u32 (attackDuration cvmod s) }
  eoc := false

/-- An Attack tick (43_envelope.md R227). -/
def envAttack (s : State) : EnvTickResult :=
  if stageOver s.arg.r0 s.env then
    { env := { stage := .decay, value := 32768, start := s.arg.r0, dur := u32 (decayDuration s) }, eoc := false }
  else
    { env := { s.env with value := u32 (attackShape (u8ToQ15 (pot2 s.arg.r1)) (envProgress s.arg.r0 s.env)) }
      eoc := false }

/-- A Decay tick (43_envelope.md R228). -/
def envDecay (s : State) : EnvTickResult :=
  if stageOver s.arg.r0 s.env then { env := { s.env with stage := .idle, value := 0 }, eoc := true }
  else
    { env := { s.env with value := u32 (decayShape (u8ToQ15 (pot2 s.arg.r1)) (envProgress s.arg.r0 s.env)) }
      eoc := false }

/-- An Idle tick (43_envelope.md R229). -/
def envIdle (s : State) : EnvTickResult := { env := { s.env with value := 0 }, eoc := false }

/-- One tick of the stage machine: exactly one row of the table of 43_envelope.md R221, chosen from the top. -/
def envTickOf (trig cvmod : Bool) (s : State) : EnvTickResult :=
  if trig then envTrigger cvmod s
  else
    match s.env.stage with
    | .attack => envAttack s
    | .decay => envDecay s
    | .idle => envIdle s

/-- The envelope's output in mV (43_envelope.md R231). -/
def envOutput (value : Word) : Word := u32 (mulQ15 10000 (unsigned value))

/-- The machine with the envelope replaced and the results in RES0..RES3 (43_envelope.md R230, R231, R232). -/
def storeEnv (r : EnvTickResult) (s : State) : State :=
  writeRes (envOutput r.env.value) (envOutput r.env.value) r.env.value
    ((flagWord r.eoc <<< 8) ||| stageCode r.env.stage) { s with env := r.env }

/-- ENV.TICK (43_envelope.md R230). -/
def execEnvTick (trig cvmod : Bool) (s : State) : Result := .next (storeEnv (envTickOf trig cvmod s) s)

end Sys2Proof.Machine
end

