-- ==== Sys2Proof/Machine/Kernel.lean ====
section
/-! DEFINITION. Family 0, the fixed-point kernel commands (40_kernel.md R150 to R153). None reads or writes engine state
or configuration (40_kernel.md section 2). -/

namespace Sys2Proof.Machine

/-- CLAMP (40_kernel.md R150). -/
def execClamp (s : State) : Result := .next (writeResult (clamp (sArg0 s) (sArg1 s) (sArg2 s)) s)

/-- MULQ15 (40_kernel.md R151). -/
def execMulq15 (s : State) : Result := .next (writeResult (mulQ15 (sArg0 s) (sArg1 s)) s)

/-- BLENDQ15 (40_kernel.md R152). -/
def execBlendq15 (s : State) : Result := .next (writeResult (blendQ15 (sArg0 s) (sArg1 s) (sArg2 s)) s)

/-- U8TOQ15 (40_kernel.md R153). -/
def execU8toq15 (s : State) : Result := .next (writeResult (u8ToQ15 (sArg0 s)) s)

end Sys2Proof.Machine
end

