-- ==== Sys2Proof/Machine/Noise.lean ====
section
/-! DEFINITION. Family 4, the sample-and-hold noise generator and quantizer (44_noise.md). -/

namespace Sys2Proof.Machine

/-! ## Scales (44_noise.md R250) -/

/-- The index of a scale. -/
def scaleIndex : Scale → Nat
  | .unquantized => 0
  | .chromatic => 1
  | .major => 2
  | .minor => 3
  | .pentatonic => 4
  | .wholeTone => 5

/-- The scale of an index. Every caller passes an index in 0..5 (30_encoding.md R113; 44_noise.md R258); 5 is written as
the last case. -/
def scaleOfIndex : Nat → Scale
  | 0 => .unquantized
  | 1 => .chromatic
  | 2 => .major
  | 3 => .minor
  | 4 => .pentatonic
  | _ => .wholeTone

/-- The scale tables, semitones above the tonic, in scan order: the first member and the rest. The unquantized and the
chromatic scale have no table and are treated apart in `quantize`. The members are the spec's, which marks them as general
knowledge (log 14). -/
def scaleTable : Scale → Int × List Int
  | .major => (0, [2, 4, 5, 7, 9, 11])
  | .minor => (0, [2, 3, 5, 7, 8, 10])
  | .pentatonic => (0, [2, 4, 7, 9])
  | .wholeTone => (0, [2, 4, 6, 8, 10])
  | .chromatic => (0, [1, 2, 3, 4, 5, 6, 7, 8, 9, 10, 11])
  | .unquantized => (0, [])

/-! ## PRNG (44_noise.md R251) -/

/-- `xorshift(x)` on 32 bits: shifts 13, 17 (logical) and 5. -/
def xorshift (x : Word) : Word :=
  let a := x ^^^ (x <<< 13)
  let b := a ^^^ (a >>> 17)
  b ^^^ (b <<< 5)

/-! ## Quantizer (44_noise.md R252) -/

/-- The nearest semitone of a value in mV, at 1000 mV an octave. -/
def semitoneOf (v : Int) : Int := floorDiv (v * 12 + 500) 1000

/-- The value in mV of a semitone number (44_noise.md R252, R254 `note`). -/
def note (k : Int) : Int := floorDiv (k * 1000 + 6) 12

/-- The scan over the table's members after the first: a member replaces the best only when strictly nearer, so the
first found wins (44_noise.md R252, R253). -/
def nearestMember (semi best : Int) : List Int → Int
  | [] => best
  | t :: rest => if absInt (semi - t) < absInt (semi - best) then nearestMember semi t rest else nearestMember semi best rest

/-- The semitone within the octave that a table gives, 12 being the next octave's tonic, taken only when strictly closer
(44_noise.md R252, R253). -/
def scaleSemitone (scale : Scale) (semi : Int) : Int :=
  let best := nearestMember semi (scaleTable scale).1 (scaleTable scale).2
  if 12 - semi < absInt (semi - best) then 12 else best

/-- The semitone number a scale gives for a semitone number. -/
def scaleNote (scale : Scale) (semis : Int) : Int :=
  match scale with
  | .chromatic => semis
  | _ => floorDiv semis 12 * 12 + scaleSemitone scale (semis % 12)

/-- `quantize(v, scale)`, in mV (44_noise.md R252). -/
def quantize (v : Int) (scale : Scale) : Int :=
  match scale with
  | .unquantized => clamp v 0 10000
  | _ => clamp (note (scaleNote scale (semitoneOf (clamp v 0 10000)))) 0 10000

/-! ## Sampling -/

/-- The half-width of the window, in mV (44_noise.md R255). -/
def windowHalf (pot3 : Int) : Int := mulQ15 5000 (u8ToQ15 pot3)

/-- The raw value of a draw in a window of half-width W (44_noise.md R255). -/
def drawValue (w : Int) (r : Word) : Int :=
  (5000 - w) + floorDiv (unsigned (r &&& 0xFFF) * 2 * w) 4095

/-- Whether a channel fires: by CLK when its raw pot exceeds the threshold, otherwise on its timer (44_noise.md R256). -/
def nzFires (cfg : CfgRegs) (clk : Bool) (now last : Word) (speedPot raw : Int) : Bool :=
  if cfgVal cfg.nzExtThresh < raw then clk
  else decide (potDuration speedPot (cfgVal cfg.nzTminUs) (cfgVal cfg.nzTmaxUs) ≤ elapsed now last)

/-- The noise generator with its seed: what resampling reads and writes. -/
structure NoiseSeed where
  nz : Noise
  seed : Word
  deriving DecidableEq, Repr

/-- The quantized value of the next draw (44_noise.md R257, first lines). -/
def nextSample (w : Int) (x : NoiseSeed) : Word := u32 (quantize (drawValue w (xorshift x.seed)) x.nz.scale)

/-- Arming of the pulse: only by channel A, and only when its quantized value changes (44_noise.md R260). -/
def armPulse (cfg : CfgRegs) (now q : Word) (nz : Noise) : Noise :=
  if q ≠ nz.cur0 then { nz with armed := true, armedUntil := now + cfg.nzPulseUs } else nz

/-- Channel A fires (44_noise.md R257, c = 0). -/
def resampleA (cfg : CfgRegs) (now : Word) (w : Int) (x : NoiseSeed) : NoiseSeed where
  nz := { armPulse cfg now (nextSample w x) x.nz with cur0 := nextSample w x, last0 := now }
  seed := xorshift x.seed

/-- Channel B fires (44_noise.md R257, c = 1). -/
def resampleB (now : Word) (w : Int) (x : NoiseSeed) : NoiseSeed where
  nz := { x.nz with cur1 := nextSample w x, last1 := now }
  seed := xorshift x.seed

/-- Channel A's turn in a tick. -/
def tickA (fires : Bool) (cfg : CfgRegs) (now : Word) (w : Int) (x : NoiseSeed) : NoiseSeed :=
  if fires then resampleA cfg now w x else x

/-- Channel B's turn in a tick. -/
def tickB (fires : Bool) (now : Word) (w : Int) (x : NoiseSeed) : NoiseSeed :=
  if fires then resampleB now w x else x

/-- Whether channel A fires in a tick of machine s. Its test reads nothing that the tick has changed (log 18). -/
def firesA (clk : Bool) (s : State) : Bool :=
  nzFires s.cfg clk s.arg.r0 s.nz.last0 (pot0 s.arg.r1) (rawLow s.arg.r2)

/-- Whether channel B fires in a tick of machine s. Its test reads nothing that channel A's turn changes (log 18). -/
def firesB (clk : Bool) (s : State) : Bool :=
  nzFires s.cfg clk s.arg.r0 s.nz.last1 (pot1 s.arg.r1) (rawHigh s.arg.r2)

/-- The sampling of a tick without HOLD, channel A before channel B (44_noise.md R255 to R257, R259). -/
def nzSample (clk : Bool) (s : State) : NoiseSeed :=
  tickB (firesB clk s) s.arg.r0 (windowHalf (pot2 s.arg.r1))
    (tickA (firesA clk s) s.cfg s.arg.r0 (windowHalf (pot2 s.arg.r1)) { nz := s.nz, seed := s.cfg.nzSeed })

/-- The scale that pot 3 selects: six bands over 0..255 (44_noise.md R258). -/
def selectedScale (arg1 : Word) : Scale := scaleOfIndex (((byteLane arg1 2).toNat * 6) >>> 8)

/-- A tick with HOLD: the scale is selected and no channel fires (44_noise.md R258). -/
def nzSelectScale (s : State) : NoiseSeed where
  nz := { s.nz with scale := selectedScale s.arg.r1 }
  seed := s.cfg.nzSeed

/-- The noise generator of a tick before the pulse output. -/
def nzBeforePulse (clk hold : Bool) (s : State) : NoiseSeed := if hold then nzSelectScale s else nzSample clk s

/-- The pulse output (44_noise.md R262). -/
def pulseOf (now : Word) (nz : Noise) : Bool := nz.armed && isActive nz.armedUntil now

/-- The armed flag is cleared at the first tick without a pulse (44_noise.md R262). -/
def disarm (now : Word) (nz : Noise) : Noise := { nz with armed := pulseOf now nz }

/-- The fired flags of channels A and B: both 0 with HOLD (44_noise.md R270). -/
def firedFlag (hold fires : Bool) : Bool := !hold && fires

/-- RES2 of NZ.TICK: scale at bits 10:8, fired B at bit 2, fired A at bit 1, pulse at bit 0 (30_encoding.md R116). -/
def tickFlags (scale : Scale) (firedB firedA pulse : Bool) : Word :=
  (BitVec.ofNat 32 (scaleIndex scale) <<< 8) ||| (flagWord firedB <<< 2) ||| (flagWord firedA <<< 1) ||| flagWord pulse

/-- The machine with the noise generator and its seed replaced (44_noise.md R270, last lines; 10_state.md R60). -/
def storeNoise (x : NoiseSeed) (firedB firedA : Bool) (s : State) : State :=
  writeRes x.nz.cur0 x.nz.cur1
    (tickFlags x.nz.scale firedB firedA (pulseOf s.arg.r0 x.nz)) x.seed
    { storeSeed x.seed s with nz := disarm s.arg.r0 x.nz }

/-- NZ.TICK (44_noise.md R270). -/
def execNzTick (clk hold : Bool) (s : State) : Result :=
  .next (storeNoise (nzBeforePulse clk hold s) (firedFlag hold (firesB clk s)) (firedFlag hold (firesA clk s)) s)

/-- NZ.DRAW (44_noise.md R271). -/
def execNzDraw (s : State) : Result :=
  .next (writeRes (xorshift s.cfg.nzSeed) 0 0 0 (storeSeed (xorshift s.cfg.nzSeed) s))

/-- NZ.QUANT.s (44_noise.md R272). -/
def execNzQuant (sel : Sel) (s : State) : Result :=
  runIfLegal (.nzQuant sel) (fun s => writeResult (quantize (sArg0 s) (scaleOfIndex sel.toNat)) s) s

end Sys2Proof.Machine
end

