-- ==== Sys2Proof/Machine/Smoother.lean ====
section
/-! DEFINITION. Family 1, the voltage smoother (41_smoother.md). -/

namespace Sys2Proof.Machine

/-- The step the smoother takes when it is not held: mulQ15 of the distance, or ±1 in the direction of travel where that
truncates to 0 (41_smoother.md R170, R172). -/
def smootherStep (diff alpha : Int) : Int :=
  if mulQ15 diff alpha = 0 then sgn diff else mulQ15 diff alpha

/-- `smootherProcess`: the instance after a call; the value returned is its `out` (41_smoother.md R170). -/
def smootherProcess (m : Smoother) (target alpha deadband : Int) : Smoother :=
  if m.init = false then { init := true, out := u32 target }
  else if absInt (target - s32 m.out) ≤ deadband then m
  else { init := m.init, out := u32 (s32 m.out + smootherStep (target - s32 m.out) alpha) }

/-- `smootherReset` (41_smoother.md R174). -/
def smootherReset (value : Int) : Smoother := { init := true, out := u32 value }

/-- The free instance SEL selects: 0 = SM0, 1 = SM1 (30_encoding.md R113). -/
def smInstance (sel : Sel) (s : State) : Smoother := if sel = 0 then s.sm0 else s.sm1

/-- SMn_ALPHA (10_state.md R40). -/
def smAlpha (sel : Sel) (s : State) : Int := if sel = 0 then cfgVal s.cfg.sm0Alpha else cfgVal s.cfg.sm1Alpha

/-- SMn_DEADBAND (10_state.md R40). -/
def smDeadband (sel : Sel) (s : State) : Int :=
  if sel = 0 then cfgVal s.cfg.sm0Deadband else cfgVal s.cfg.sm1Deadband

/-- The machine with the selected free instance replaced. -/
def setSmInstance (sel : Sel) (m : Smoother) (s : State) : State :=
  if sel = 0 then { s with sm0 := m } else { s with sm1 := m }

/-- A smoother command stores its instance and returns the instance's output in RES0 (41_smoother.md R175). -/
def storeSmoother (sel : Sel) (m : Smoother) (s : State) : State :=
  writeRes m.out 0 0 0 (setSmInstance sel m s)

/-- SM.PROCESS.n (41_smoother.md R175). -/
def execSmProcess (sel : Sel) (s : State) : Result :=
  runIfLegal (.smProcess sel)
    (fun s => storeSmoother sel (smootherProcess (smInstance sel s) (sArg0 s) (smAlpha sel s) (smDeadband sel s)) s) s

/-- SM.RESET.n (41_smoother.md R176). -/
def execSmReset (sel : Sel) (s : State) : Result :=
  runIfLegal (.smReset sel)
    (fun s => writeResult (sArg0 s) (setSmInstance sel (smootherReset (sArg0 s)) s)) s

end Sys2Proof.Machine
end

