-- ==== Sys2Proof/Machine/Slew.lean ====
section
/-! DEFINITION. Family 2, the slew limiter (42_slew.md). -/

namespace Sys2Proof.Machine

/-- The target of a channel, clamped to the bipolar domain (42_slew.md R194). -/
def slewTarget (arg : Word) : Int := clamp (s32 arg) (-5000) 5000

/-- The coefficient denominator, in µs (42_slew.md R196). -/
def slewDenom (cfg : CfgRegs) (rate : Int) : Int := mulQ15 (cfgVal cfg.slTmaxUs) rate

/-- The slew coefficient, Q15 in 0..32768 (42_slew.md R196). -/
def slewCoeff (cfg : CfgRegs) (el rate : Int) : Int :=
  if slewDenom cfg rate = 0 ∨ slewDenom cfg rate < cfgVal cfg.slDenomMinUs then 32768
  else min 32768 (floorDiv (el * 32768) (slewDenom cfg rate))

/-- The linear move, capped so that it cannot overshoot (42_slew.md R197). -/
def slewLinStep (cfg : CfgRegs) (diff coeff : Int) : Int :=
  sgn diff * min (mulQ15 (cfgVal cfg.slFullrangeMv) coeff) (absInt diff)

/-- The blend of the linear and the exponential move, before the non-stall rule (42_slew.md R197). -/
def slewBlend (cfg : CfgRegs) (diff coeff shapeQ : Int) : Int :=
  blendQ15 (slewLinStep cfg diff coeff) (mulQ15 diff coeff) shapeQ

/-- The step of a moving channel (42_slew.md R197). -/
def slewStep (cfg : CfgRegs) (diff coeff shapeQ : Int) : Int :=
  if slewBlend cfg diff coeff shapeQ = 0 then sgn diff else slewBlend cfg diff coeff shapeQ

/-- The rate of a direction: rising uses the rise rate, falling the fall rate (42_slew.md R195). -/
def slewRate (diff riseQ fallQ : Int) : Int := if 0 < diff then riseQ else fallQ

/-- One channel's slewed value after a step (42_slew.md R194 to R198). -/
def slewChannel (cfg : CfgRegs) (el riseQ fallQ shapeQ : Int) (arg cur : Word) : Word :=
  if slewTarget arg - s32 cur = 0 then cur
  else
    u32 (s32 cur +
      slewStep cfg (slewTarget arg - s32 cur)
        (slewCoeff cfg el (slewRate (slewTarget arg - s32 cur) riseQ fallQ)) shapeQ)

/-- One channel's output smoother after a step (42_slew.md R199). -/
def slewOutput (cfg : CfgRegs) (m : Smoother) (cur : Word) : Smoother :=
  smootherProcess m (clamp (s32 cur + 5000) 0 10000) (cfgVal cfg.slSmAlpha) (cfgVal cfg.slSmDeadband)

/-- `st.sl.linked` after the link toggle, which comes first (42_slew.md R191). -/
def slewLinked (toggleLink : Bool) (sl : Slew) : Bool := if toggleLink then !sl.linked else sl.linked

/-- The rise rate (42_slew.md R193). -/
def slewRiseQ (arg3 : Word) : Int := potCurve (pot0 arg3)

/-- The fall rate: the rise pot governs both when linked (42_slew.md R193). -/
def slewFallQ (linked : Bool) (arg3 : Word) : Int := if linked then slewRiseQ arg3 else potCurve (pot1 arg3)

/-- The shape (42_slew.md R193). -/
def slewShapeQ (arg3 : Word) : Int := u8ToQ15 (pot2 arg3)

/-- One channel's slewed value in a step of the whole engine: `arg` is the channel's target operand, `cur` its value. -/
def slewChannelOf (toggleLink : Bool) (s : State) (arg cur : Word) : Word :=
  slewChannel s.cfg (elapsed s.arg.r2 s.sl.last) (slewRiseQ s.arg.r3)
    (slewFallQ (slewLinked toggleLink s.sl) s.arg.r3) (slewShapeQ s.arg.r3) arg cur

/-- The slew limiter after a step (42_slew.md R200). -/
def slewNext (toggleLink : Bool) (s : State) : Slew where
  cur0 := slewChannelOf toggleLink s s.arg.r0 s.sl.cur0
  cur1 := slewChannelOf toggleLink s s.arg.r1 s.sl.cur1
  linked := slewLinked toggleLink s.sl
  last := s.arg.r2
  smA := slewOutput s.cfg s.sl.smA (slewChannelOf toggleLink s s.arg.r0 s.sl.cur0)
  smB := slewOutput s.cfg s.sl.smB (slewChannelOf toggleLink s s.arg.r1 s.sl.cur1)

/-- The machine with the slew limiter replaced and its outputs in RES0..RES3 (42_slew.md R200, last line). -/
def storeSlew (sl : Slew) (s : State) : State :=
  writeRes sl.smA.out sl.smB.out sl.cur0 sl.cur1 { s with sl := sl }

/-- SL.STEP (42_slew.md R200). -/
def execSlStep (toggleLink : Bool) (s : State) : Result := .next (storeSlew (slewNext toggleLink s) s)

end Sys2Proof.Machine
end

