-- ==== Sys2Proof/Machine/Dispatch.lean ====
section
/-! DEFINITION. The effect of a legal command (30_encoding.md R110, last line): one arm per row of the opcode map. -/

namespace Sys2Proof.Machine

def exec (i : Instr) (s : State) : Host.Outcome State Fault Refusal :=
  match i with
  | .nop => Sys2Proof.Machine.execNop s
  | .clamp => Sys2Proof.Machine.execClamp s
  | .mulq15 => Sys2Proof.Machine.execMulq15 s
  | .blendq15 => Sys2Proof.Machine.execBlendq15 s
  | .u8toq15 => Sys2Proof.Machine.execU8toq15 s
  | .smProcess sel => Sys2Proof.Machine.execSmProcess sel s
  | .smReset sel => Sys2Proof.Machine.execSmReset sel s
  | .slStep toggleLink => Sys2Proof.Machine.execSlStep toggleLink s
  | .envTick trig cvmod => Sys2Proof.Machine.execEnvTick trig cvmod s
  | .nzTick clk hold => Sys2Proof.Machine.execNzTick clk hold s
  | .nzDraw => Sys2Proof.Machine.execNzDraw s
  | .nzQuant sel => Sys2Proof.Machine.execNzQuant sel s

end Sys2Proof.Machine
end

