-- ==== Sys2Proof/Machine/Window.lean ====
section
/-! DEFINITION. The register window: which register stands at which offset, its access, its value, and the legal values of
the configuration registers (20_memory.md R81; 10_state.md R31 to R36, R40, R41, R63). -/

namespace Sys2Proof.Machine

/-- The configuration registers by name (10_state.md R40). -/
inductive CfgName where
  | sm0Alpha | sm0Deadband | sm1Alpha | sm1Deadband | slSmAlpha | slSmDeadband | slTmaxUs | slDenomMinUs
  | slFullrangeMv | envTminUs | envTmaxUs | envCvDzMv | nzTminUs | nzTmaxUs | nzExtThresh | nzPulseUs | nzSeed
  deriving DecidableEq, Repr

/-- The readback registers by name (10_state.md R63). -/
inductive Readback where
  | sm0Out | sm0Init | sm1Out | sm1Init | slCur0 | slCur1 | slLastUs | slLinked | slSmaOut | slSmaInit | slSmbOut
  | slSmbInit | envStage | envValue | envStartUs | envDurUs | nzCur0 | nzCur1 | nzLast0Us | nzLast1Us | nzScale
  | nzArmed | nzArmedUntilUs
  deriving DecidableEq, Repr

/-- The registers of the window (20_memory.md R81). -/
inductive Reg where
  | cmd | status | errCmd | errAddr | arg0 | arg1 | arg2 | arg3 | res0 | res1 | res2 | res3
  | cfg (n : CfgName)
  | readback (r : Readback)
  deriving DecidableEq, Repr

/-- The offset of a configuration register (10_state.md R40). -/
def cfgOffset : CfgName → Offset
  | .sm0Alpha => 0x40
  | .sm0Deadband => 0x44
  | .sm1Alpha => 0x48
  | .sm1Deadband => 0x4C
  | .slSmAlpha => 0x50
  | .slSmDeadband => 0x54
  | .slTmaxUs => 0x58
  | .slDenomMinUs => 0x5C
  | .slFullrangeMv => 0x60
  | .envTminUs => 0x70
  | .envTmaxUs => 0x74
  | .envCvDzMv => 0x78
  | .nzTminUs => 0x80
  | .nzTmaxUs => 0x84
  | .nzExtThresh => 0x88
  | .nzPulseUs => 0x8C
  | .nzSeed => 0x90

/-- The offset of a readback register (10_state.md R63). -/
def readbackOffset : Readback → Offset
  | .sm0Out => 0xA0
  | .sm0Init => 0xA4
  | .sm1Out => 0xA8
  | .sm1Init => 0xAC
  | .slCur0 => 0xB0
  | .slCur1 => 0xB4
  | .slLastUs => 0xB8
  | .slLinked => 0xBC
  | .slSmaOut => 0xC0
  | .slSmaInit => 0xC4
  | .slSmbOut => 0xC8
  | .slSmbInit => 0xCC
  | .envStage => 0xD0
  | .envValue => 0xD4
  | .envStartUs => 0xD8
  | .envDurUs => 0xDC
  | .nzCur0 => 0xE0
  | .nzCur1 => 0xE4
  | .nzLast0Us => 0xE8
  | .nzLast1Us => 0xEC
  | .nzScale => 0xF0
  | .nzArmed => 0xF4
  | .nzArmedUntilUs => 0xF8

/-- The offset of a register (20_memory.md R81; 10_state.md R31 to R36). -/
def regOffset : Reg → Offset
  | .cmd => 0x00
  | .status => 0x04
  | .errCmd => 0x08
  | .errAddr => 0x0C
  | .arg0 => 0x10
  | .arg1 => 0x14
  | .arg2 => 0x18
  | .arg3 => 0x1C
  | .res0 => 0x20
  | .res1 => 0x24
  | .res2 => 0x28
  | .res3 => 0x2C
  | .cfg n => cfgOffset n
  | .readback r => readbackOffset r

/-- Every configuration register, in the order of 10_state.md R40. -/
def cfgNames : List CfgName :=
  [.sm0Alpha, .sm0Deadband, .sm1Alpha, .sm1Deadband, .slSmAlpha, .slSmDeadband, .slTmaxUs, .slDenomMinUs,
    .slFullrangeMv, .envTminUs, .envTmaxUs, .envCvDzMv, .nzTminUs, .nzTmaxUs, .nzExtThresh, .nzPulseUs, .nzSeed]

/-- Every readback register, in the order of 10_state.md R63. -/
def readbackNames : List Readback :=
  [.sm0Out, .sm0Init, .sm1Out, .sm1Init, .slCur0, .slCur1, .slLastUs, .slLinked, .slSmaOut, .slSmaInit, .slSmbOut,
    .slSmbInit, .envStage, .envValue, .envStartUs, .envDurUs, .nzCur0, .nzCur1, .nzLast0Us, .nzLast1Us, .nzScale,
    .nzArmed, .nzArmedUntilUs]

/-- Every register of the window, in offset order (20_memory.md R81). -/
def windowRegs : List Reg :=
  [.cmd, .status, .errCmd, .errAddr, .arg0, .arg1, .arg2, .arg3, .res0, .res1, .res2, .res3]
    ++ cfgNames.map .cfg ++ readbackNames.map .readback

/-- The register at an offset; none where the offset is unmapped or inside a register (20_memory.md R81, R84). -/
def regAt (off : Offset) : Option Reg := windowRegs.find? fun r => regOffset r == off

/-- Whether a register is read-only (20_memory.md R81). -/
def readOnly : Reg → Bool
  | .errCmd => true
  | .errAddr => true
  | .res0 => true
  | .res1 => true
  | .res2 => true
  | .res3 => true
  | .readback _ => true
  | .cmd => false
  | .status => false
  | .arg0 => false
  | .arg1 => false
  | .arg2 => false
  | .arg3 => false
  | .cfg _ => false

/-- The address of a register on the host bus: `P_BASE + offset(NAME)`, the only addressing mode (20_memory.md R80,
R89). -/
def regAddress (p : Config.Params) (r : Reg) : Nat := p.base + (regOffset r).toNat

/-- The window offset a host address selects; none where the address is outside the window (20_memory.md R80; log 3). -/
def windowOffset (p : Config.Params) (addr : Nat) : Option Offset :=
  if p.base ≤ addr ∧ addr < p.base + 256 then some (BitVec.ofNat 8 (addr - p.base)) else none

/-! ## Values -/

/-- The value of a configuration register (10_state.md R40). -/
def readCfg (n : CfgName) (c : CfgRegs) : Word :=
  match n with
  | .sm0Alpha => c.sm0Alpha
  | .sm0Deadband => c.sm0Deadband
  | .sm1Alpha => c.sm1Alpha
  | .sm1Deadband => c.sm1Deadband
  | .slSmAlpha => c.slSmAlpha
  | .slSmDeadband => c.slSmDeadband
  | .slTmaxUs => c.slTmaxUs
  | .slDenomMinUs => c.slDenomMinUs
  | .slFullrangeMv => c.slFullrangeMv
  | .envTminUs => c.envTminUs
  | .envTmaxUs => c.envTmaxUs
  | .envCvDzMv => c.envCvDzMv
  | .nzTminUs => c.nzTminUs
  | .nzTmaxUs => c.nzTmaxUs
  | .nzExtThresh => c.nzExtThresh
  | .nzPulseUs => c.nzPulseUs
  | .nzSeed => c.nzSeed

/-- The configuration registers with one register set to a value. -/
def setCfg (n : CfgName) (v : Word) (c : CfgRegs) : CfgRegs :=
  match n with
  | .sm0Alpha => { c with sm0Alpha := v }
  | .sm0Deadband => { c with sm0Deadband := v }
  | .sm1Alpha => { c with sm1Alpha := v }
  | .sm1Deadband => { c with sm1Deadband := v }
  | .slSmAlpha => { c with slSmAlpha := v }
  | .slSmDeadband => { c with slSmDeadband := v }
  | .slTmaxUs => { c with slTmaxUs := v }
  | .slDenomMinUs => { c with slDenomMinUs := v }
  | .slFullrangeMv => { c with slFullrangeMv := v }
  | .envTminUs => { c with envTminUs := v }
  | .envTmaxUs => { c with envTmaxUs := v }
  | .envCvDzMv => { c with envCvDzMv := v }
  | .nzTminUs => { c with nzTminUs := v }
  | .nzTmaxUs => { c with nzTmaxUs := v }
  | .nzExtThresh => { c with nzExtThresh := v }
  | .nzPulseUs => { c with nzPulseUs := v }
  | .nzSeed => { c with nzSeed := v }

/-- The legal value a write of w stores in a configuration register (10_state.md R41). -/
def warl (n : CfgName) (w : Word) : Word :=
  match n with
  | .sm0Alpha => u32 (clamp (s32 w) 0 32768)
  | .sm1Alpha => u32 (clamp (s32 w) 0 32768)
  | .slSmAlpha => u32 (clamp (s32 w) 0 32768)
  | .sm0Deadband => u32 (clamp (s32 w) 0 2147483647)
  | .sm1Deadband => u32 (clamp (s32 w) 0 2147483647)
  | .slSmDeadband => u32 (clamp (s32 w) 0 2147483647)
  | .slFullrangeMv => u32 (clamp (s32 w) 0 2147483647)
  | .envCvDzMv => u32 (clamp (s32 w) 0 4999)
  | .nzExtThresh => u32 (min (unsigned w) 65535)
  | .slTmaxUs => w
  | .slDenomMinUs => w
  | .envTminUs => w
  | .envTmaxUs => w
  | .nzTminUs => w
  | .nzTmaxUs => w
  | .nzPulseUs => w
  | .nzSeed => w

/-- The value of a readback register (10_state.md R63). -/
def readReadback (r : Readback) (s : State) : Word :=
  match r with
  | .sm0Out => s.sm0.out
  | .sm0Init => flagWord s.sm0.init
  | .sm1Out => s.sm1.out
  | .sm1Init => flagWord s.sm1.init
  | .slCur0 => s.sl.cur0
  | .slCur1 => s.sl.cur1
  | .slLastUs => s.sl.last
  | .slLinked => flagWord s.sl.linked
  | .slSmaOut => s.sl.smA.out
  | .slSmaInit => flagWord s.sl.smA.init
  | .slSmbOut => s.sl.smB.out
  | .slSmbInit => flagWord s.sl.smB.init
  | .envStage => stageCode s.env.stage
  | .envValue => s.env.value
  | .envStartUs => s.env.start
  | .envDurUs => s.env.dur
  | .nzCur0 => s.nz.cur0
  | .nzCur1 => s.nz.cur1
  | .nzLast0Us => s.nz.last0
  | .nzLast1Us => s.nz.last1
  | .nzScale => BitVec.ofNat 32 (scaleIndex s.nz.scale)
  | .nzArmed => flagWord s.nz.armed
  | .nzArmedUntilUs => s.nz.armedUntil

/-- The value of a register: what a legal read returns (20_memory.md R82). -/
def readReg (r : Reg) (s : State) : Word :=
  match r with
  | .cmd => s.cmd
  | .status => statusRead s.status
  | .errCmd => s.errCmd
  | .errAddr => s.errAddr
  | .arg0 => s.arg.r0
  | .arg1 => s.arg.r1
  | .arg2 => s.arg.r2
  | .arg3 => s.arg.r3
  | .res0 => s.res.r0
  | .res1 => s.res.r1
  | .res2 => s.res.r2
  | .res3 => s.res.r3
  | .cfg n => readCfg n s.cfg
  | .readback b => readReadback b s

/-! ## Legal accesses (20_memory.md R82) -/

/-- The number of bytes of an access size. -/
def sizeBytes : Size → Nat
  | .byte => 1
  | .half => 2
  | .word => 4

/-- Whether an access has the one legal size and alignment (20_memory.md R82, R84). -/
def alignedWord (off : Offset) (n : Size) : Bool := sizeBytes n == 4 && off.toNat % 4 == 0

/-- The register a legal read reads; none where the read is not legal (20_memory.md R82). -/
def readTarget (off : Offset) (n : Size) : Option Reg := if alignedWord off n then regAt off else none

/-- The register a legal write writes; none where the write is not legal (20_memory.md R82). -/
def writeTarget (off : Offset) (n : Size) : Option Reg :=
  match readTarget off n with
  | none => none
  | some r => if readOnly r then none else some r

end Sys2Proof.Machine
end

