-- ==== Sys2Proof/Machine/Bus.lean ====
section
/-! DEFINITION. Bus accesses (20_memory.md R82 to R91) and the execution of a command word (30_encoding.md R110). -/

namespace Sys2Proof.Machine

/-- `Execute(w)`: an illegal word raises IllegalCommand and nothing else; a legal one runs its command (30_encoding.md
R110, R117). -/
def execute (w : Word) (s : State) : Result :=
  match decode w with
  | .error _ => .next (raiseIllegalCommand w s)
  | .ok i => exec i s

/-- `MemRead(off, n)`: a legal read returns the register's value and changes no state; any other raises BadAccess and
returns 0 (20_memory.md R82, R85, R87). -/
def memRead (off : Offset) (n : Size) (s : State) : State :=
  match readTarget off n with
  | some r => returnValue (readReg r s) s
  | none => returnValue 0 (raiseBadAccess off s)

/-- The effect of a legal write of v to a register: a write to CMD stores the word and runs the command (10_state.md R31),
STATUS is write 1 to clear (R32), ARG takes the word (R35), a configuration register its legal value (R41). No write to a
read-only register is legal, so those rows do nothing here. -/
def writeReg (r : Reg) (v : Word) (s : State) : Result :=
  match r with
  | .cmd => execute v (storeCmd v s)
  | .status => .next (clearErrors v s)
  | .arg0 => .next { s with arg := { s.arg with r0 := v } }
  | .arg1 => .next { s with arg := { s.arg with r1 := v } }
  | .arg2 => .next { s with arg := { s.arg with r2 := v } }
  | .arg3 => .next { s with arg := { s.arg with r3 := v } }
  | .cfg n => .next { s with cfg := setCfg n (warl n v) s.cfg }
  | .errCmd => .next s
  | .errAddr => .next s
  | .res0 => .next s
  | .res1 => .next s
  | .res2 => .next s
  | .res3 => .next s
  | .readback _ => .next s

/-- `MemWrite(off, n, v)`: a legal write has its register's effect; any other raises BadAccess and runs no command
(20_memory.md R82, R85; 60_exceptions.md R294: the access is checked before any decode). -/
def memWrite (off : Offset) (n : Size) (v : Word) (s : State) : Result :=
  match writeTarget off n with
  | some r => writeReg r v s
  | none => .next (raiseBadAccess off s)

/-- One interaction of the host with the block, run to completion (20_memory.md R90, R96). -/
def performAccess (a : Access) (s : State) : Result :=
  match a with
  | .read off n => .next (memRead off n s)
  | .write off n v => memWrite off n v s
  | .reset => .next (resetBlock s)

/-- The host's next access, if it makes one; the block does nothing between accesses (00_scope.md R7; 60_exceptions.md
R307; log 2). -/
def performNext (s : State) : Result :=
  match s.pending with
  | [] => .next s
  | a :: rest => performAccess a (setPending rest s)

end Sys2Proof.Machine
end

