-- ==== Sys2Proof/Machine/Step.lean ====
section
/-! DEFINITION. One step of the machine: the host's oldest pending access, run to completion (20_memory.md R90). -/

namespace Sys2Proof.Machine

/-- One step: the host's next access (20_memory.md R90). -/
def step (s : State) : Host.Outcome State Fault Refusal := performNext s

/-- The machine whose next access is the host's legal write to CMD of the word with these bits (log 2). -/
def State.withFetchWord (s : State) (nbits w : Nat) : State := queueCommandWrite (tableWord nbits w) s

end Sys2Proof.Machine
end

