-- ==== Sys2Proof/Machine/Assembler.lean ====
section
/-! DEFINITION. The host's statements, the pseudo-instructions and the command syntax (30_encoding.md R119, R120), as the
bus accesses they stand for. -/

namespace Sys2Proof.Machine

/-- A statement of a host program (30_encoding.md R119). -/
inductive Stmt where
  /-- `wr REG, value`: one legal 32-bit write. -/
  | wr (r : Reg) (v : Word)
  /-- `rd REG`: one legal 32-bit read. -/
  | rd (r : Reg)
  /-- A command: `wr CMD, encoding`. -/
  | command (i : Instr)
  deriving DecidableEq, Repr

/-- The bus access a statement stands for (30_encoding.md R119). -/
def stmtAccess : Stmt → Access
  | .wr r v => .write (regOffset r) .word v
  | .rd r => .read (regOffset r) .word
  | .command i => .write (regOffset .cmd) .word (encode i)

/-- `pack(x, y, z)`: `x[7:0] | y[7:0]<<8 | z[7:0]<<16` (30_encoding.md R120). -/
def pack (x y z : Word) : Word :=
  (byteLane x 0).setWidth 32 ||| ((byteLane y 0).setWidth 32 <<< 8) ||| ((byteLane z 0).setWidth 32 <<< 16)

/-- `pack16(x, y)`: `x[15:0] | y[15:0]<<16` (30_encoding.md R120). -/
def pack16 (x y : Word) : Word :=
  (x.extractLsb' 0 16).setWidth 32 ||| ((y.extractLsb' 0 16).setWidth 32 <<< 16)

/-- The pseudo-instructions (30_encoding.md R120). -/
inductive Pseudo where
  | clamp (v lo hi : Word)
  | mulq15 (v g : Word)
  | blendq15 (a b t : Word)
  | u8toq15 (v : Word)
  | smooth (n : Sel) (x : Word)
  | smreset (n : Sel) (x : Word)
  | slstep (ta tb now rise fall shape : Word) (toggleLink : Bool)
  | envtick (now att dec shape cv : Word) (trig cvmod : Bool)
  | nztick (now spa spb p3 rawa rawb : Word) (clk hold : Bool)
  | draw
  | quant (s : Sel) (v : Word)
  | clrerr
  deriving DecidableEq, Repr

/-- The expansion of a pseudo-instruction, in order (30_encoding.md R120). -/
def expand : Pseudo → List Stmt
  | .clamp v lo hi => [.wr .arg0 v, .wr .arg1 lo, .wr .arg2 hi, .command .clamp, .rd .res0]
  | .mulq15 v g => [.wr .arg0 v, .wr .arg1 g, .command .mulq15, .rd .res0]
  | .blendq15 a b t => [.wr .arg0 a, .wr .arg1 b, .wr .arg2 t, .command .blendq15, .rd .res0]
  | .u8toq15 v => [.wr .arg0 v, .command .u8toq15, .rd .res0]
  | .smooth n x => [.wr .arg0 x, .command (.smProcess n), .rd .res0]
  | .smreset n x => [.wr .arg0 x, .command (.smReset n)]
  | .slstep ta tb now rise fall shape toggleLink =>
    [.wr .arg0 ta, .wr .arg1 tb, .wr .arg2 now, .wr .arg3 (pack rise fall shape), .command (.slStep toggleLink),
      .rd .res0, .rd .res1]
  | .envtick now att dec shape cv trig cvmod =>
    [.wr .arg0 now, .wr .arg1 (pack att dec shape), .wr .arg2 cv, .command (.envTick trig cvmod), .rd .res0, .rd .res3]
  | .nztick now spa spb p3 rawa rawb clk hold =>
    [.wr .arg0 now, .wr .arg1 (pack spa spb p3), .wr .arg2 (pack16 rawa rawb), .command (.nzTick clk hold),
      .rd .res0, .rd .res1, .rd .res2]
  | .draw => [.command .nzDraw, .rd .res0]
  | .quant s v => [.wr .arg0 v, .command (.nzQuant s), .rd .res0]
  | .clrerr => [.wr .status 0x3]

/-- The bus accesses of a host program (30_encoding.md R119). -/
def programAccesses (l : List Stmt) : List Access := l.map stmtAccess

/-- Flag names joined as in `TRIG|CVMOD`, after a space; nothing where no flag is set (30_encoding.md R119). -/
def flagText (names : List String) : String :=
  match names with
  | [] => ""
  | _ => " " ++ String.intercalate "|" names

/-- The names of the set flags. -/
def flagNames (l : List (Bool × String)) : List String := (l.filter fun p => p.1).map fun p => p.2

/-- The written form of a command, `MNEMONIC[.SEL] [FLAG|FLAG]` (30_encoding.md R119; log 16). -/
def commandText : Instr → String
  | .nop => "NOP"
  | .clamp => "CLAMP"
  | .mulq15 => "MULQ15"
  | .blendq15 => "BLENDQ15"
  | .u8toq15 => "U8TOQ15"
  | .smProcess sel => "SM.PROCESS." ++ toString sel.toNat
  | .smReset sel => "SM.RESET." ++ toString sel.toNat
  | .slStep toggleLink => "SL.STEP" ++ flagText (flagNames [(toggleLink, "TOGGLE_LINK")])
  | .envTick trig cvmod => "ENV.TICK" ++ flagText (flagNames [(trig, "TRIG"), (cvmod, "CVMOD")])
  | .nzTick clk hold => "NZ.TICK" ++ flagText (flagNames [(clk, "CLK"), (hold, "HOLD")])
  | .nzDraw => "NZ.DRAW"
  | .nzQuant sel => "NZ.QUANT." ++ toString sel.toNat

end Sys2Proof.Machine
end

