-- ==== Sys2Proof/Safety.lean ====
section
/-! DEFINITION. What counts as a well-kept machine and a dutiful host, in the terms the statements use. -/

namespace Sys2Proof.Safety

open Sys2Proof.Machine

/-- Every configuration register holds a legal value (10_state.md R40, R41); the registers not named here hold any 32-bit
value. -/
abbrev CfgLegal (c : CfgRegs) : Prop :=
  c.sm0Alpha.toNat ≤ 32768 ∧ c.sm1Alpha.toNat ≤ 32768 ∧ c.slSmAlpha.toNat ≤ 32768 ∧
    c.sm0Deadband.toNat < 2 ^ 31 ∧ c.sm1Deadband.toNat < 2 ^ 31 ∧ c.slSmDeadband.toNat < 2 ^ 31 ∧
    c.slFullrangeMv.toNat < 2 ^ 31 ∧ c.envCvDzMv.toNat ≤ 4999 ∧ c.nzExtThresh.toNat ≤ 65535

/-- The error registers hold what 10_state.md R32 to R34 say: reserved STATUS bits are 0, ERR_CMD is its reset value or a
word that is no command, ERR_ADDR is an offset of the window. -/
abbrev ErrorRegsLegal (s : State) : Prop :=
  s.status.toNat < 4 ∧ (s.errCmd = 0 ∨ (decode s.errCmd).isOk = false) ∧ s.errAddr.toNat < 256

/-- The slew limiter's values lie in their domains: the slewed values in the bipolar domain (10_state.md R51), the output
smoothers' values in the DAC domain (42_slew.md R199; 41_smoother.md R171). -/
abbrev SlewLegal (sl : Slew) : Prop :=
  (-5000 ≤ s32 sl.cur0 ∧ s32 sl.cur0 ≤ 5000) ∧ (-5000 ≤ s32 sl.cur1 ∧ s32 sl.cur1 ≤ 5000) ∧
    (0 ≤ s32 sl.smA.out ∧ s32 sl.smA.out ≤ 10000) ∧ (0 ≤ s32 sl.smB.out ∧ s32 sl.smB.out ≤ 10000)

/-- The envelope's value is a Q15 value in 0..32768 (10_state.md R52), and 0 in Idle (43_envelope.md R221). -/
abbrev EnvLegal (e : Env) : Prop := e.value.toNat ≤ 32768 ∧ (e.stage = .idle → e.value = 0)

/-- The noise generator's held values lie in the DAC domain (10_state.md R53). -/
abbrev NoiseLegal (nz : Noise) : Prop := nz.cur0.toNat ≤ 10000 ∧ nz.cur1.toNat ≤ 10000

/-- The domains that 10_state.md gives every item of state, and legal OPEN parameters. -/
abbrev InDomains (s : State) : Prop :=
  ErrorRegsLegal s ∧ CfgLegal s.cfg ∧ SlewLegal s.sl ∧ EnvLegal s.env ∧ NoiseLegal s.nz ∧ s.params.Legal

/-- No error is recorded in STATUS (10_state.md R32). -/
abbrev ErrorFree (s : State) : Prop := statusRead s.status = 0

/-! ## The host's duties on `now` (70_reset_and_hazards.md R322) -/

/-- The reading of the host's monotonic microsecond counter at true time t: it wraps at 2^32. -/
def clockReading (t : Nat) : Word := BitVec.ofNat 32 t

/-- Monotonic time and the elapsed bound: less than 2^32 µs from a kept timestamp to the next `now`. -/
abbrev ElapsedDuty (t0 t : Nat) : Prop := t0 ≤ t ∧ t < t0 + 2 ^ 32

/-- The pulse bound: a deadline less than 2^31 µs ahead of `now`, or passed by less than 2^31 µs. -/
abbrev PulseDuty (deadline t : Nat) : Prop := deadline < t + 2 ^ 31 ∧ t < deadline + 2 ^ 31

/-! ## Laws that statements share -/

/-- What one call makes of a smoother instance with alpha and deadband (41_smoother.md R170): a first call takes the
target; a target within the deadband changes nothing; otherwise the output moves by `tdiv(diff * alpha, 32768)`, or by 1
toward the target where that is 0. -/
def SmootherCall (m m' : Smoother) (target alpha deadband : Int) : Prop :=
  (m.init = false → m' = { init := true, out := BitVec.ofInt 32 target }) ∧
  (m.init = true → ((target - m.out.toInt).natAbs : Int) ≤ deadband → m' = m) ∧
  (m.init = true → deadband < ((target - m.out.toInt).natAbs : Int) →
    Int.tdiv ((target - m.out.toInt) * alpha) 32768 ≠ 0 →
    m' = { init := true, out := BitVec.ofInt 32 (m.out.toInt + Int.tdiv ((target - m.out.toInt) * alpha) 32768) }) ∧
  (m.init = true → deadband < ((target - m.out.toInt).natAbs : Int) →
    Int.tdiv ((target - m.out.toInt) * alpha) 32768 = 0 →
    m' = { init := true, out := BitVec.ofInt 32 (m.out.toInt + (target - m.out.toInt).sign) })

/-- A note of a scale, as a semitone number counted from the tonic of octave 0 (44_noise.md R250): every number in the
chromatic scale, elsewhere the numbers whose semitone within the octave is in the scale's table. -/
def IsScaleNote (sc : Scale) (k : Int) : Prop :=
  match sc with
  | .unquantized => True
  | .chromatic => True
  | .major => k % 12 ∈ [0, 2, 4, 5, 7, 9, 11]
  | .minor => k % 12 ∈ [0, 2, 3, 5, 7, 8, 10]
  | .pentatonic => k % 12 ∈ [0, 2, 4, 7, 9]
  | .wholeTone => k % 12 ∈ [0, 2, 4, 6, 8, 10]

/-- 1 or 0. -/
def bit (b : Bool) : Word := if b then 1 else 0

/-- The code that a read of ENV_STAGE returns (10_state.md R52, R63). -/
def stageNumber : Stage → Word
  | .idle => 0
  | .attack => 1
  | .decay => 2

/-- The index that a read of NZ_SCALE returns (44_noise.md R250; 10_state.md R63). -/
def scaleNumber : Scale → Word
  | .unquantized => 0
  | .chromatic => 1
  | .major => 2
  | .minor => 3
  | .pentatonic => 4
  | .wholeTone => 5

/-- The command, error, operand and result registers by offset, with what a read returns (10_state.md R31 to R36). -/
def registerTable (s : State) : List (Offset × Word) :=
  [(0x00, s.cmd), (0x04, s.status &&& 3), (0x08, s.errCmd), (0x0C, s.errAddr),
    (0x10, s.arg.r0), (0x14, s.arg.r1), (0x18, s.arg.r2), (0x1C, s.arg.r3),
    (0x20, s.res.r0), (0x24, s.res.r1), (0x28, s.res.r2), (0x2C, s.res.r3)]

/-- The configuration registers by offset, with what a read returns (10_state.md R40). -/
def configTable (s : State) : List (Offset × Word) :=
  [(0x40, s.cfg.sm0Alpha), (0x44, s.cfg.sm0Deadband), (0x48, s.cfg.sm1Alpha), (0x4C, s.cfg.sm1Deadband),
    (0x50, s.cfg.slSmAlpha), (0x54, s.cfg.slSmDeadband), (0x58, s.cfg.slTmaxUs), (0x5C, s.cfg.slDenomMinUs),
    (0x60, s.cfg.slFullrangeMv), (0x70, s.cfg.envTminUs), (0x74, s.cfg.envTmaxUs), (0x78, s.cfg.envCvDzMv),
    (0x80, s.cfg.nzTminUs), (0x84, s.cfg.nzTmaxUs), (0x88, s.cfg.nzExtThresh), (0x8C, s.cfg.nzPulseUs),
    (0x90, s.cfg.nzSeed)]

/-- The readback registers by offset, with what a read returns (10_state.md R63). -/
def readbackTable (s : State) : List (Offset × Word) :=
  [(0xA0, s.sm0.out), (0xA4, bit s.sm0.init), (0xA8, s.sm1.out), (0xAC, bit s.sm1.init),
    (0xB0, s.sl.cur0), (0xB4, s.sl.cur1), (0xB8, s.sl.last), (0xBC, bit s.sl.linked),
    (0xC0, s.sl.smA.out), (0xC4, bit s.sl.smA.init), (0xC8, s.sl.smB.out), (0xCC, bit s.sl.smB.init),
    (0xD0, stageNumber s.env.stage), (0xD4, s.env.value), (0xD8, s.env.start), (0xDC, s.env.dur),
    (0xE0, s.nz.cur0), (0xE4, s.nz.cur1), (0xE8, s.nz.last0), (0xEC, s.nz.last1),
    (0xF0, scaleNumber s.nz.scale), (0xF4, bit s.nz.armed), (0xF8, s.nz.armedUntil)]

/-- The 52 registers of the window by offset, with what a legal read returns (20_memory.md R81, R82), written out from the
tables and not from the model's own map. -/
def windowTable (s : State) : List (Offset × Word) := registerTable s ++ configTable s ++ readbackTable s

end Sys2Proof.Safety
end

