-- ==== Sys2Proof/Certificates/Slice0/Obligations.lean ====
section
/-! DEFINITION. The statements about the model, stated and not proved here. Each docstring names the rule it formalises. -/

open Sys2Proof Sys2Proof.Machine Sys2Proof.Safety

/-! ## Encoding -/

/-- Decoding the word of a well-formed command gives the command back (30_encoding.md R111 to R114). -/
def Obligations.DecodeInvertsEncode : Prop :=
  ∀ i : Instr, i.wf = true → decode (encode i) = .ok i

/-- A legal word is the word of exactly the command it decodes to, so no bit of it is dropped (30_encoding.md R110,
R115). -/
def Obligations.EncodeInvertsDecode : Prop :=
  ∀ (w : Word) (i : Instr), decode w = .ok i → i.wf = true ∧ encode i = w

/-- A word is a legal command of a row exactly when it matches the row's match and mask columns, plus SEL ≤ 5 for
NZ.QUANT; and no two rows match one word (30_encoding.md R112). The rows are written out from the table. -/
def Obligations.LegalWordsMatchOneRow : Prop :=
  (∀ row ∈ ([(.nop, 0x00000000, 0xFFFFFFFF), (.clamp, 0x00000001, 0xFFFFFFFF), (.mulq15, 0x00000002, 0xFFFFFFFF),
        (.blendq15, 0x00000003, 0xFFFFFFFF), (.u8toq15, 0x00000004, 0xFFFFFFFF), (.smProcess, 0x00000010, 0xFFFFFEFF),
        (.smReset, 0x00000011, 0xFFFFFEFF), (.slStep, 0x00000020, 0xFFFFEFFF), (.envTick, 0x00000030, 0xFFFFCFFF),
        (.nzTick, 0x00000040, 0xFFFFCFFF), (.nzDraw, 0x00000041, 0xFFFFFFFF), (.nzQuant, 0x00000042, 0xFFFFF8FF)] :
        List (Op × Word × Word)), ∀ w : Word,
      (∃ i, decode w = .ok i ∧ i.op = row.1) ↔
        (w &&& row.2.2 = row.2.1 ∧ (row.1 = .nzQuant → (w.extractLsb' 8 3).toNat ≤ 5))) ∧
  (∀ (w : Word) (o o' : Op), o.Matches w → o'.Matches w → o = o')

/-- Words written out from the encodings of 30_encoding.md R112 and 95_test_vectors.md 2.1 decode to the commands they
stand for; words with a reserved bit, OP, SEL or flag decode to nothing (R117). -/
def Obligations.TableWordsDecode : Prop :=
  decode 0x00000000 = .ok .nop ∧ decode 0x00000003 = .ok .blendq15 ∧ decode 0x00000110 = .ok (.smProcess 1) ∧
  decode 0x00000111 = .ok (.smReset 1) ∧ decode 0x00001020 = .ok (.slStep true) ∧
  decode 0x00002030 = .ok (.envTick false true) ∧ decode 0x00001040 = .ok (.nzTick true false) ∧
  decode 0x00000542 = .ok (.nzQuant 5) ∧
  (decode 0x00000642).isOk = false ∧ (decode 0x00000810).isOk = false ∧ (decode 0x00000005).isOk = false ∧
  (decode 0x00001010).isOk = false ∧ (decode 0x80000000).isOk = false

/-! ## The step, and the host's accesses -/

/-- A step whose access is a legal write to CMD of a word that decodes to i stores the word in CMD and runs i
(10_state.md R31; 30_encoding.md R110). How the access stands in the state is the model's choice, log 2. -/
def Obligations.StepRunsTheDecodedCommand : Prop :=
  ∀ (s : State) (w : Word) (i : Instr) (rest : List Access),
    s.pending = .write 0x00 .word w :: rest → decode w = .ok i →
    step s = exec i { s with pending := rest, cmd := w }

/-- A step whose access writes an illegal word to CMD keeps the word in CMD, sets STATUS bit 0, records the word in
ERR_CMD, and changes nothing else (30_encoding.md R117; 60_exceptions.md R291). How the access stands in the state is
the model's choice, log 2. -/
def Obligations.IllegalWordIsRecorded : Prop :=
  ∀ (s : State) (w : Word) (e : DecodeError) (rest : List Access),
    s.pending = .write 0x00 .word w :: rest → decode w = .error e →
    step s = .next { s with pending := rest, cmd := w, status := s.status ||| 1, errCmd := w }

/-- Between accesses the block does nothing (60_exceptions.md R307). That the machine steps at all then is the model's
choice, DESIGN CHOICE of log 2. -/
def Obligations.IdleBlockHoldsItsState : Prop :=
  ∀ s : State, s.pending = [] → step s = .next s

/-- A legal read of each of the 52 mapped offsets returns the register's value and changes no state (20_memory.md R81,
R82; 10_state.md R31 to R36, R40, R63). The map, `windowTable`, is written out from the tables. How the access stands in
the state is the model's choice, log 2. -/
def Obligations.LegalReadReturnsTheRegister : Prop :=
  ∀ (s : State) (rest : List Access),
    ∀ p ∈ windowTable s,
      step { s with pending := .read p.1 .word :: rest }
        = .next { s with pending := rest, readLog := s.readLog ++ [p.2] }

/-- An access that is not legal (a size other than 4, a misaligned offset, an unmapped offset, or a write to a read-only
register) sets STATUS bit 1, records its offset in ERR_ADDR, returns 0 where it is a read, and has no other effect: no
command runs (20_memory.md R81, R84, R85; 60_exceptions.md R292). How the access stands in the state is the model's
choice, log 2. -/
def Obligations.IllegalAccessIsRecorded : Prop :=
  ∀ (s : State) (off : Offset) (n : Size) (v : Word) (rest : List Access),
    (¬ (n = .word ∧ off.toNat % 4 = 0 ∧
        (off.toNat ≤ 0x2C ∨ (0x40 ≤ off.toNat ∧ off.toNat ≤ 0x60) ∨ (0x70 ≤ off.toNat ∧ off.toNat ≤ 0x78) ∨
          (0x80 ≤ off.toNat ∧ off.toNat ≤ 0x90) ∨ (0xA0 ≤ off.toNat ∧ off.toNat ≤ 0xF8))) →
      step { s with pending := .read off n :: rest } =
        .next { s with pending := rest, status := s.status ||| 2, errAddr := off.setWidth 32, readLog := s.readLog ++ [0] }) ∧
    (¬ (n = .word ∧ off.toNat % 4 = 0 ∧
        (off.toNat ≤ 0x04 ∨ (0x10 ≤ off.toNat ∧ off.toNat ≤ 0x1C) ∨ (0x40 ≤ off.toNat ∧ off.toNat ≤ 0x60) ∨
          (0x70 ≤ off.toNat ∧ off.toNat ≤ 0x78) ∨ (0x80 ≤ off.toNat ∧ off.toNat ≤ 0x90))) →
      step { s with pending := .write off n v :: rest } =
        .next { s with pending := rest, status := s.status ||| 2, errAddr := off.setWidth 32 })

/-- A legal write to an ARG register stores the word and changes nothing else (10_state.md R35; 20_memory.md R82). How
the access stands in the state is the model's choice, log 2. -/
def Obligations.OperandWriteStoresTheWord : Prop :=
  ∀ (s : State) (v : Word) (rest : List Access),
    ∀ p ∈ ([(0x10, { s.arg with r0 := v }), (0x14, { s.arg with r1 := v }), (0x18, { s.arg with r2 := v }),
        (0x1C, { s.arg with r3 := v })] : List (Offset × Quad)),
      step { s with pending := .write p.1 .word v :: rest } = .next { s with pending := rest, arg := p.2 }

/-- A legal write of v to STATUS clears the bits that v has set among bits 1:0 and changes nothing else; ERR_CMD and
ERR_ADDR keep their values (10_state.md R32; 60_exceptions.md R298). How the access stands in the state is the model's
choice, log 2. -/
def Obligations.StatusWriteClearsWrittenOnes : Prop :=
  ∀ (s : State) (v : Word) (rest : List Access),
    step { s with pending := .write 0x04 .word v :: rest } =
      .next { s with pending := rest, status := s.status &&& ~~~ (v &&& 3) }

/-- A write of w to each configuration register stores the legal value of 10_state.md R41's table and changes nothing
else, whatever it held before; every legal value is written out. How the access stands in the state is the model's
choice, log 2. -/
def Obligations.ConfigWriteStoresTheLegalValue : Prop :=
  ∀ (s : State) (w : Word) (rest : List Access),
    ∀ p ∈ ([(0x40, { s.cfg with sm0Alpha := BitVec.ofInt 32 (max 0 (min w.toInt 32768)) }),
        (0x44, { s.cfg with sm0Deadband := if w.toInt < 0 then 0 else w }),
        (0x48, { s.cfg with sm1Alpha := BitVec.ofInt 32 (max 0 (min w.toInt 32768)) }),
        (0x4C, { s.cfg with sm1Deadband := if w.toInt < 0 then 0 else w }),
        (0x50, { s.cfg with slSmAlpha := BitVec.ofInt 32 (max 0 (min w.toInt 32768)) }),
        (0x54, { s.cfg with slSmDeadband := if w.toInt < 0 then 0 else w }),
        (0x58, { s.cfg with slTmaxUs := w }), (0x5C, { s.cfg with slDenomMinUs := w }),
        (0x60, { s.cfg with slFullrangeMv := if w.toInt < 0 then 0 else w }),
        (0x70, { s.cfg with envTminUs := w }), (0x74, { s.cfg with envTmaxUs := w }),
        (0x78, { s.cfg with envCvDzMv := BitVec.ofInt 32 (max 0 (min w.toInt 4999)) }),
        (0x80, { s.cfg with nzTminUs := w }), (0x84, { s.cfg with nzTmaxUs := w }),
        (0x88, { s.cfg with nzExtThresh := if w.toNat ≤ 65535 then w else 65535 }),
        (0x8C, { s.cfg with nzPulseUs := w }), (0x90, { s.cfg with nzSeed := w })] : List (Offset × CfgRegs)),
      step { s with pending := .write p.1 .word w :: rest } = .next { s with pending := rest, cfg := p.2 }

/-! ## Reset -/

/-- After reset every item of state holds the value of 10_state.md R70, the configuration registers the values of R40,
the OPEN ones from the parameters; the machine's reset state is such a state for legal parameters. Which parameters
State.reset takes is the model's choice, DESIGN CHOICE of log 1. -/
def Obligations.ResetHoldsTheSpecValues : Prop :=
  (∀ p : Config.Params,
    (State.resetWith p).cmd = 0 ∧ (State.resetWith p).status = 0 ∧ (State.resetWith p).errCmd = 0 ∧
    (State.resetWith p).errAddr = 0 ∧ (State.resetWith p).arg = ⟨0, 0, 0, 0⟩ ∧ (State.resetWith p).res = ⟨0, 0, 0, 0⟩ ∧
    (State.resetWith p).cfg =
      ⟨p.smAlpha, p.smDeadband, p.smAlpha, p.smDeadband, p.slSmAlpha, p.slSmDeadband, p.slTmaxUs, p.slDenomMinUs, 10000,
        1000, 5000000, p.envCvDzMv, 1000, 2000000, p.nzExtThresh, p.nzPulseUs, p.nzSeed⟩ ∧
    (State.resetWith p).sm0 = ⟨false, 0⟩ ∧ (State.resetWith p).sm1 = ⟨false, 0⟩ ∧
    (State.resetWith p).sl = ⟨0, 0, false, 0, ⟨false, 0⟩, ⟨false, 0⟩⟩ ∧
    (State.resetWith p).env = ⟨.idle, 0, 0, 0⟩ ∧
    (State.resetWith p).nz = ⟨0, 0, 5000, 5000, .unquantized, 0, false⟩) ∧
  (∃ p : Config.Params, p.Legal ∧ State.reset = State.resetWith p)

/-- When the platform asserts reset, every register and every item of engine state takes its reset value, whatever it
held; no command runs and no error is raised (70_reset_and_hazards.md R310). That the host's later accesses and what it
has read are kept is the model's choice, log 5. -/
def Obligations.AssertedResetRestoresEverything : Prop :=
  ∀ (s : State) (rest : List Access),
    step { s with pending := .reset :: rest } =
      .next { State.resetWith s.params with pending := rest, readLog := s.readLog }

/-! ## Results of the commands, with their frames: each statement gives the whole next state -/

/-- NOP is the word 0x00000000; with OP 0x00 any other word is illegal. It changes nothing, STATUS and the results of the
previous command included (30_encoding.md R121). -/
def Obligations.NopChangesNothing : Prop :=
  (∀ w : Word, w.extractLsb' 0 8 = 0 → ((decode w).isOk = true ↔ w = 0)) ∧ decode 0x00000000 = .ok .nop ∧
  ∀ s : State, exec .nop s = .next s

/-- CLAMP, word 0x00000001, writes lo when v < lo, else hi when v > hi, else v, to RES0, and 0 to RES1..RES3; nothing
else changes (40_kernel.md R140, R150). -/
def Obligations.ClampWritesTheClampedValue : Prop :=
  decode 0x00000001 = .ok .clamp ∧
  ∀ s : State, exec .clamp s = .next { s with res := ⟨
    if s.arg.r0.toInt < s.arg.r1.toInt then s.arg.r1
    else if s.arg.r2.toInt < s.arg.r0.toInt then s.arg.r2 else s.arg.r0, 0, 0, 0⟩ }

/-- MULQ15, word 0x00000002, writes the exact product divided by 32768, truncated toward zero and narrowed to 32 bits,
to RES0, and 0 to RES1..RES3; nothing else changes (40_kernel.md R141, R142, R151). -/
def Obligations.Mulq15WritesTheTruncatedProduct : Prop :=
  decode 0x00000002 = .ok .mulq15 ∧
  ∀ s : State, exec .mulq15 s = .next { s with res :=
    ⟨BitVec.ofInt 32 (Int.tdiv (s.arg.r0.toInt * s.arg.r1.toInt) 32768), 0, 0, 0⟩ }

/-- BLENDQ15, word 0x00000003, writes `a*(32768-t) + b*t` divided by 32768, truncated toward zero and narrowed to 32
bits, to RES0, and 0 to RES1..RES3; nothing else changes (40_kernel.md R143, R152). -/
def Obligations.Blendq15WritesTheBlend : Prop :=
  decode 0x00000003 = .ok .blendq15 ∧
  ∀ s : State, exec .blendq15 s = .next { s with res :=
    ⟨BitVec.ofInt 32 (Int.tdiv (s.arg.r0.toInt * (32768 - s.arg.r2.toInt) + s.arg.r1.toInt * s.arg.r2.toInt) 32768),
      0, 0, 0⟩ }

/-- U8TOQ15, word 0x00000004, writes v * 32768 / 255 rounded to the nearest integer for v in 0..255, 0 below and 32768
above, to RES0, and 0 to RES1..RES3; nothing else changes (40_kernel.md R144, R153). -/
def Obligations.U8toq15RoundsToNearest : Prop :=
  decode 0x00000004 = .ok .u8toq15 ∧
  ∀ s : State, ∃ r : Int, exec .u8toq15 s = .next { s with res := ⟨BitVec.ofInt 32 r, 0, 0, 0⟩ } ∧
    (s.arg.r0.toInt ≤ 0 → r = 0) ∧ (255 ≤ s.arg.r0.toInt → r = 32768) ∧
    (0 ≤ s.arg.r0.toInt → s.arg.r0.toInt ≤ 255 → 2 * (255 * r - 32768 * s.arg.r0.toInt).natAbs < 255)

/-- SM.PROCESS.n, word `0x10 | n<<8`, legal for n in 0..1 and illegal above, runs one call of SMn on ARG0 with SMn's own
alpha and deadband, writes its output to RES0 and 0 to RES1..RES3; nothing else changes (41_smoother.md R170, R175;
30_encoding.md R113). -/
def Obligations.SmProcessCallsTheSelectedSmoother : Prop :=
  (∀ n : Sel, (n.toNat ≤ 1 → decode (0x10 ||| (n.setWidth 32 <<< 8)) = .ok (.smProcess n)) ∧
    (1 < n.toNat → (decode (0x10 ||| (n.setWidth 32 <<< 8))).isOk = false)) ∧
  ∀ s : State,
    (∃ m : Smoother, exec (.smProcess 0) s = .next { s with sm0 := m, res := ⟨m.out, 0, 0, 0⟩ } ∧
      SmootherCall s.sm0 m s.arg.r0.toInt s.cfg.sm0Alpha.toNat s.cfg.sm0Deadband.toNat) ∧
    (∃ m : Smoother, exec (.smProcess 1) s = .next { s with sm1 := m, res := ⟨m.out, 0, 0, 0⟩ } ∧
      SmootherCall s.sm1 m s.arg.r0.toInt s.cfg.sm1Alpha.toNat s.cfg.sm1Deadband.toNat)

/-- SM.RESET.n, word `0x11 | n<<8`, legal for n in 0..1 and illegal above, sets SMn's init and takes ARG0 as its output,
which RES0 returns, and writes 0 to RES1..RES3; nothing else changes (41_smoother.md R174, R176). -/
def Obligations.SmResetSetsTheSelectedSmoother : Prop :=
  (∀ n : Sel, (n.toNat ≤ 1 → decode (0x11 ||| (n.setWidth 32 <<< 8)) = .ok (.smReset n)) ∧
    (1 < n.toNat → (decode (0x11 ||| (n.setWidth 32 <<< 8))).isOk = false)) ∧
  ∀ s : State,
    exec (.smReset 0) s = .next { s with sm0 := ⟨true, s.arg.r0⟩, res := ⟨s.arg.r0, 0, 0, 0⟩ } ∧
    exec (.smReset 1) s = .next { s with sm1 := ⟨true, s.arg.r0⟩, res := ⟨s.arg.r0, 0, 0, 0⟩ }

/-- A command term whose SEL is above its row's SELMAX is an illegal command: STATUS bit 0 is set, ERR_CMD takes its
word, and nothing else changes (30_encoding.md R117; 41_smoother.md R175, R176; 44_noise.md R272). That such a term can
be executed at all is the model's choice, log 6. -/
def Obligations.SelOutOfRangeIsIllegal : Prop :=
  ∀ (s : State) (sel : Sel),
    (1 < sel.toNat →
      exec (.smProcess sel) s =
        .next { s with status := s.status ||| 1, errCmd := 0x10 ||| (sel.setWidth 32 <<< 8) } ∧
      exec (.smReset sel) s =
        .next { s with status := s.status ||| 1, errCmd := 0x11 ||| (sel.setWidth 32 <<< 8) }) ∧
    (5 < sel.toNat →
      exec (.nzQuant sel) s =
        .next { s with status := s.status ||| 1, errCmd := 0x42 ||| (sel.setWidth 32 <<< 8) })

/-- SL.STEP, word 0x00000020, or 0x00001020 with TOGGLE_LINK and illegal with any other flag or SEL, toggles the link
first, keeps `now`, moves each channel by the rule of 42_slew.md R194 to R198, runs each output smoother on the
channel's DAC value (R199), and returns the outputs and the slewed values; nothing else changes (42_slew.md R191 to
R200). -/
def Obligations.SlStepMovesBothChannels : Prop :=
  decode 0x00000020 = .ok (.slStep false) ∧ decode 0x00001020 = .ok (.slStep true) ∧
  (∀ (sel : Sel) (flags : FlagBits),
    (decode (0x20 ||| (sel.setWidth 32 <<< 8) ||| (flags.setWidth 32 <<< 12))).isOk = true ↔
      sel = 0 ∧ flags.toNat ≤ 1) ∧
  ∀ (s : State) (toggleLink : Bool), ∃ sl : Slew,
    exec (.slStep toggleLink) s =
      .next { s with sl := sl, res := ⟨sl.smA.out, sl.smB.out, sl.cur0, sl.cur1⟩ } ∧
    sl.linked = (s.sl.linked ^^ toggleLink) ∧ sl.last = s.arg.r2 ∧
    (∀ ch ∈ [(s.arg.r0, s.sl.cur0, sl.cur0, s.sl.smA, sl.smA), (s.arg.r1, s.sl.cur1, sl.cur1, s.sl.smB, sl.smB)],
      let diff := max (-5000) (min ch.1.toInt 5000) - ch.2.1.toInt
      let pot := if 0 < diff ∨ sl.linked = true then s.arg.r3.toNat % 256 else s.arg.r3.toNat / 256 % 256
      let denom := mulQ15 s.cfg.slTmaxUs.toNat (potCurve pot)
      let el : Int := (s.arg.r2 - s.sl.last).toNat
      let coeff := if denom = 0 ∨ denom < s.cfg.slDenomMinUs.toNat then 32768 else min 32768 (el * 32768 / denom)
      let lin := diff.sign * min (mulQ15 s.cfg.slFullrangeMv.toNat coeff) diff.natAbs
      let step := blendQ15 lin (mulQ15 diff coeff) (u8ToQ15 (s.arg.r3.toNat / 65536 % 256))
      (diff = 0 → ch.2.2.1 = ch.2.1) ∧
      (diff ≠ 0 → step ≠ 0 → ch.2.2.1 = BitVec.ofInt 32 (ch.2.1.toInt + step)) ∧
      (diff ≠ 0 → step = 0 → ch.2.2.1 = BitVec.ofInt 32 (ch.2.1.toInt + diff.sign)) ∧
      SmootherCall ch.2.2.2.1 ch.2.2.2.2 (max 0 (min (ch.2.2.1.toInt + 5000) 10000)) s.cfg.slSmAlpha.toNat
        s.cfg.slSmDeadband.toNat)

/-- ENV.TICK, words 0x00000030 with TRIG at bit 12 and CVMOD at bit 13 and illegal with any other flag or SEL, takes
exactly one row of the stage table, from the top: a trigger from any stage, the end of Attack, inside Attack, the end of
Decay, inside Decay, Idle; it returns the output `10000 * value / 32768` twice, the value, and eoc with the stage;
nothing else changes (43_envelope.md R221, R222, R224 to R231). -/
def Obligations.EnvTickFollowsTheStageTable : Prop :=
  decode 0x00000030 = .ok (.envTick false false) ∧ decode 0x00001030 = .ok (.envTick true false) ∧
  decode 0x00002030 = .ok (.envTick false true) ∧ decode 0x00003030 = .ok (.envTick true true) ∧
  (∀ (sel : Sel) (flags : FlagBits),
    (decode (0x30 ||| (sel.setWidth 32 <<< 8) ||| (flags.setWidth 32 <<< 12))).isOk = true ↔
      sel = 0 ∧ flags.toNat ≤ 3) ∧
  ∀ (s : State) (trig cvmod : Bool), ∃ (env : Env) (eoc : Bool),
    exec (.envTick trig cvmod) s = .next { s with env := env, res :=
      ⟨BitVec.ofInt 32 (Int.tdiv (10000 * env.value.toNat) 32768),
        BitVec.ofInt 32 (Int.tdiv (10000 * env.value.toNat) 32768), env.value,
        (if eoc then 0x100 else 0) ||| (match env.stage with
          | .idle => 0
          | .attack => 1
          | .decay => 2)⟩ } ∧
    (let now := s.arg.r0
     let el := (now - s.env.start).toNat
     let shapeQ := u8ToQ15 (s.arg.r1.toNat / 65536 % 256)
     let duration : Nat → Int := fun pot => potDuration pot s.cfg.envTminUs.toNat s.cfg.envTmaxUs.toNat
     let x : Int := (el * 32768 / s.env.dur.toNat : Nat)
     let y : Int := 32768 - mulQ15 (32768 - x) (32768 - x)
     (trig = true → cvmod = false →
       env = ⟨.attack, 0, now, BitVec.ofInt 32 (duration (s.arg.r1.toNat % 256))⟩ ∧ eoc = false) ∧
     (trig = true → cvmod = true →
       env = ⟨.attack, 0, now, BitVec.ofInt 32 (cvModulate s.cfg (duration (s.arg.r1.toNat % 256)) s.arg.r2.toInt)⟩ ∧
         eoc = false) ∧
     (trig = false → s.env.stage = .attack → s.env.dur.toNat ≤ el →
       env = ⟨.decay, 32768, now, BitVec.ofInt 32 (duration (s.arg.r1.toNat / 256 % 256))⟩ ∧ eoc = false) ∧
     (trig = false → s.env.stage = .attack → el < s.env.dur.toNat →
       env = { s.env with value := BitVec.ofInt 32 (blendQ15 x (mulQ15 x x) shapeQ) } ∧ eoc = false) ∧
     (trig = false → s.env.stage = .decay → s.env.dur.toNat ≤ el →
       env = { s.env with stage := .idle, value := 0 } ∧ eoc = true) ∧
     (trig = false → s.env.stage = .decay → el < s.env.dur.toNat →
       env = { s.env with value := BitVec.ofInt 32 (32768 - blendQ15 x y shapeQ) } ∧ eoc = false) ∧
     (trig = false → s.env.stage = .idle → env = { s.env with value := 0 } ∧ eoc = false))

/-- NZ.TICK with HOLD sets the scale to `(pot3 * 6) >> 8` and fires no channel: no draw, no timestamp and no value
change, whatever CLK is; only the pulse output is brought up to date; nothing else changes (44_noise.md R258, R262,
R270). -/
def Obligations.NzTickWithHoldSelectsTheScale : Prop :=
  ∀ (s : State) (clk : Bool),
    let index := s.arg.r1.toNat / 65536 % 256 * 6 / 256
    let pulse := s.nz.armed && decide (0 < (s.nz.armedUntil - s.arg.r0).toInt)
    ∃ sc : Scale, scaleIndex sc = index ∧
      exec (.nzTick clk true) s = .next { s with
        nz := { s.nz with scale := sc, armed := pulse }
        res := ⟨s.nz.cur0, s.nz.cur1, BitVec.ofNat 32 (index * 256 + pulse.toNat), s.cfg.nzSeed⟩ }

/-- NZ.TICK, words 0x00000040 with CLK at bit 12 and HOLD at bit 13 and illegal with any other flag or SEL, without HOLD
tests each channel by its raw pot, CLK and timer, takes one draw for each that fires, A first, then quantizes, arms the
pulse for a changed A, updates the pulse output, and returns the values, the flags and the seed; nothing else changes
(44_noise.md R255 to R257, R259, R260, R262, R270). -/
def Obligations.NzTickResamplesFiringChannels : Prop :=
  decode 0x00000040 = .ok (.nzTick false false) ∧ decode 0x00001040 = .ok (.nzTick true false) ∧
  decode 0x00002040 = .ok (.nzTick false true) ∧ decode 0x00003040 = .ok (.nzTick true true) ∧
  (∀ (sel : Sel) (flags : FlagBits),
    (decode (0x40 ||| (sel.setWidth 32 <<< 8) ||| (flags.setWidth 32 <<< 12))).isOk = true ↔
      sel = 0 ∧ flags.toNat ≤ 3) ∧
  ∀ (s : State) (clk : Bool),
    let now := s.arg.r0
    let fires : Nat → Nat → Word → Bool := fun speed raw last =>
      if s.cfg.nzExtThresh.toNat < raw then clk
      else decide (potDuration speed s.cfg.nzTminUs.toNat s.cfg.nzTmaxUs.toNat ≤ (now - last).toNat)
    let fa := fires (s.arg.r1.toNat % 256) (s.arg.r2.toNat % 65536) s.nz.last0
    let fb := fires (s.arg.r1.toNat / 256 % 256) (s.arg.r2.toNat / 65536) s.nz.last1
    let w := mulQ15 5000 (u8ToQ15 (s.arg.r1.toNat / 65536 % 256))
    let sample : Word → Word := fun r =>
      BitVec.ofInt 32 (quantize (5000 - w + (r.toNat % 4096 : Nat) * 2 * w / 4095) s.nz.scale)
    let seedA := if fa then xorshift s.cfg.nzSeed else s.cfg.nzSeed
    let seedB := if fb then xorshift seedA else seedA
    let curA := if fa then sample seedA else s.nz.cur0
    let curB := if fb then sample seedB else s.nz.cur1
    let changed := fa && decide (curA ≠ s.nz.cur0)
    let deadline := if changed then now + s.cfg.nzPulseUs else s.nz.armedUntil
    let pulse := (changed || s.nz.armed) && decide (0 < (deadline - now).toInt)
    exec (.nzTick clk false) s = .next { s with
      cfg := { s.cfg with nzSeed := seedB }
      nz := ⟨if fa then now else s.nz.last0, if fb then now else s.nz.last1, curA, curB, s.nz.scale, deadline, pulse⟩
      res := ⟨curA, curB,
        BitVec.ofNat 32 (scaleIndex s.nz.scale * 256 + fb.toNat * 4 + fa.toNat * 2 + pulse.toNat), seedB⟩ }

/-- NZ.DRAW, word 0x00000041, illegal with any SEL or flag, replaces the seed by its next xorshift value, which RES0
returns, and writes 0 to RES1..RES3; nothing else changes (44_noise.md R251, R271). -/
def Obligations.NzDrawStepsTheSeed : Prop :=
  (∀ (sel : Sel) (flags : FlagBits),
    (decode (0x41 ||| (sel.setWidth 32 <<< 8) ||| (flags.setWidth 32 <<< 12))).isOk = true ↔ sel = 0 ∧ flags = 0) ∧
  decode 0x00000041 = .ok .nzDraw ∧
  ∀ s : State,
    let x := s.cfg.nzSeed
    let a := x ^^^ (x <<< 13)
    let b := a ^^^ (a >>> 17)
    let c := b ^^^ (b <<< 5)
    exec .nzDraw s = .next { s with cfg := { s.cfg with nzSeed := c }, res := ⟨c, 0, 0, 0⟩ }

/-- NZ.QUANT.s, word `0x42 | s<<8`, legal for s in 0..5 without flags and illegal otherwise, returns in RES0 the value
in mV of the note of the scale that is nearest to the operand's semitone, the lower one of two equally near ones, and
the clamped operand in the unquantized scale; it writes 0 to RES1..RES3, and nothing else changes (44_noise.md R252,
R253, R272). -/
def Obligations.NzQuantGivesTheNearestNote : Prop :=
  (∀ (sel : Sel) (flags : FlagBits),
    (decode (0x42 ||| (sel.setWidth 32 <<< 8) ||| (flags.setWidth 32 <<< 12))).isOk = true ↔
      sel.toNat ≤ 5 ∧ flags = 0) ∧
  (∀ sel : Sel, sel.toNat ≤ 5 → decode (0x42 ||| (sel.setWidth 32 <<< 8)) = .ok (.nzQuant sel)) ∧
  ∀ (s : State) (sel : Sel), sel.toNat ≤ 5 → ∃ v : Int,
    exec (.nzQuant sel) s = .next { s with res := ⟨BitVec.ofInt 32 v, 0, 0, 0⟩ } ∧
    (let mv := max 0 (min s.arg.r0.toInt 10000)
     let semis := (mv * 12 + 500) / 1000
     let sc := scaleOfIndex sel.toNat
     scaleIndex sc = sel.toNat ∧
     (sel = 0 → v = mv) ∧
     (sel ≠ 0 → ∃ k : Int, v = (k * 1000 + 6) / 12 ∧ IsScaleNote sc k ∧
       (∀ j : Int, IsScaleNote sc j → (semis - k).natAbs < (semis - j).natAbs ∨
         ((semis - k).natAbs = (semis - j).natAbs ∧ k ≤ j))))

/-- The operands that the pseudo-instructions pack are the pots that the commands read: each pot's low byte, each raw
pot's low halfword, whatever its other bits (30_encoding.md R116, R120). -/
def Obligations.PackedPotsReadBack : Prop :=
  (∀ x y z : Word, pot0 (pack x y z) = (x.toNat % 256 : Nat) ∧ pot1 (pack x y z) = (y.toNat % 256 : Nat) ∧
    pot2 (pack x y z) = (z.toNat % 256 : Nat)) ∧
  (∀ x y : Word, rawLow (pack16 x y) = (x.toNat % 65536 : Nat) ∧ rawHigh (pack16 x y) = (y.toNat % 65536 : Nat))

/-! ## The kernel functions -/

/-- The identities that 40_kernel.md R149 gives as normative, for every integer. -/
def Obligations.Q15Identities : Prop :=
  (∀ g : Int, mulQ15 32768 g = g) ∧ (∀ v : Int, mulQ15 v 32768 = v) ∧
  (∀ a b : Int, blendQ15 a b 0 = a) ∧ (∀ a b : Int, blendQ15 a b 32768 = b)

/-- mulQ15's magnitude is the floor of the product's magnitude over 32768, and its sign is the product's (40_kernel.md
R148): it truncates toward zero, unlike an arithmetic shift. -/
def Obligations.MulQ15TruncatesTowardZero : Prop :=
  ∀ v g : Int, (mulQ15 v g).natAbs = (v * g).natAbs / 32768 ∧ (mulQ15 v g ≠ 0 → (mulQ15 v g).sign = v.sign * g.sign)

/-- For t in 0..32768 BLENDQ15's result, read back as s32, lies between a and b inclusive (40_kernel.md R152). -/
def Obligations.BlendStaysBetweenItsEnds : Prop :=
  ∀ (s t : State), 0 ≤ s.arg.r2.toInt → s.arg.r2.toInt ≤ 32768 → exec .blendq15 s = .next t →
    min s.arg.r0.toInt s.arg.r1.toInt ≤ t.res.r0.toInt ∧ t.res.r0.toInt ≤ max s.arg.r0.toInt s.arg.r1.toInt

/-- The cubic pot curve is the composition of two truncating Q15 products of the rounded pot, and rises from 0 at pot 0
to 32768 at pot 255 (40_kernel.md R145). -/
def Obligations.PotCurveRisesFromZeroToOne : Prop :=
  (∀ p : Int, 0 ≤ p → p ≤ 255 →
    let q := u8ToQ15 p
    potCurve p = Int.tdiv (Int.tdiv (q * q) 32768 * q) 32768) ∧
  potCurve 0 = 0 ∧ potCurve 255 = 32768 ∧ (∀ p p' : Int, 0 ≤ p → p ≤ p' → p' ≤ 255 → potCurve p ≤ potCurve p')

/-- potDuration is `tmin + mulQ15(tmax - tmin, potCurve(p))`: it gives tmin at pot 0, tmax at pot 255, and always lies
between the two inclusive, whichever is larger (40_kernel.md R146). -/
def Obligations.PotDurationLiesBetweenItsEnds : Prop :=
  ∀ tmin tmax : Int, potDuration 0 tmin tmax = tmin ∧ potDuration 255 tmin tmax = tmax ∧
    ∀ p : Int, potDuration p tmin tmax = tmin + mulQ15 (tmax - tmin) (potCurve p) ∧
      min tmin tmax ≤ potDuration p tmin tmax ∧ potDuration p tmin tmax ≤ max tmin tmax

/-- Time arithmetic gives true times when the host keeps its duties: the elapsed time between two readings less than
2^32 µs apart, and whether a deadline within 2^31 µs is still ahead (40_kernel.md R147; 70_reset_and_hazards.md R322).
-/
def Obligations.TimeArithmeticSurvivesWrap : Prop :=
  (∀ t0 t : Nat, ElapsedDuty t0 t → elapsed (clockReading t) (clockReading t0) = (t : Int) - t0) ∧
  (∀ d t : Nat, PulseDuty d t → (isActive (clockReading d) (clockReading t) = true ↔ t < d))

/-! ## The smoother -/

/-- No overshoot: with alpha in 0..32768 an initialised smoother's output moves from where it is toward the target and
never past it, and the narrowing to 32 bits never changes the sum (41_smoother.md R171). -/
def Obligations.SmootherNeverOvershoots : Prop :=
  ∀ (m : Smoother) (target : Word) (alpha deadband : Int), m.init = true → 0 ≤ alpha → alpha ≤ 32768 →
    min m.out.toInt target.toInt ≤ (smootherProcess m target.toInt alpha deadband).out.toInt ∧
    (smootherProcess m target.toInt alpha deadband).out.toInt ≤ max m.out.toInt target.toInt ∧
    (u32 (m.out.toInt + smootherStep (target.toInt - m.out.toInt) alpha)).toInt =
      m.out.toInt + smootherStep (target.toInt - m.out.toInt) alpha

/-- The deadband comparison is not strict: an initialised smoother with alpha in 0..32768 and deadband ≥ 0 is held, with
no change of state, exactly when the target is at most deadband away (41_smoother.md R173). -/
def Obligations.SmootherIsHeldInsideTheDeadband : Prop :=
  ∀ (m : Smoother) (target : Word) (alpha deadband : Int), m.init = true → 0 ≤ alpha → alpha ≤ 32768 → 0 ≤ deadband →
    (smootherProcess m target.toInt alpha deadband = m ↔ ((target.toInt - m.out.toInt).natAbs : Int) ≤ deadband)

/-- Non-stall: outside the deadband a step that mulQ15 truncates to 0 is 1 mV toward the target, each call moves at
least 1 mV toward the target, and repeated calls on one target come within the deadband in at most `max(0, |target -
out| - deadband)` calls (41_smoother.md R172). -/
def Obligations.SmootherReachesTheDeadband : Prop :=
  ∀ (m : Smoother) (target : Word) (alpha deadband : Int), m.init = true → 0 ≤ alpha → alpha ≤ 32768 → 0 ≤ deadband →
    (deadband < ((target.toInt - m.out.toInt).natAbs : Int) → mulQ15 (target.toInt - m.out.toInt) alpha = 0 →
      (smootherProcess m target.toInt alpha deadband).out.toInt = m.out.toInt + (target.toInt - m.out.toInt).sign) ∧
    (deadband < ((target.toInt - m.out.toInt).natAbs : Int) →
      (target.toInt - (smootherProcess m target.toInt alpha deadband).out.toInt).natAbs + 1 ≤
        (target.toInt - m.out.toInt).natAbs) ∧
    (∀ k : Nat, ((target.toInt - m.out.toInt).natAbs : Int) - deadband ≤ k →
      ((target.toInt - ((fun x => smootherProcess x target.toInt alpha deadband)^[k] m).out.toInt).natAbs : Int) ≤ deadband)

/-! ## The slew limiter -/

/-- The slew limiter never overshoots: for either channel, whatever the state, `|new - old| ≤ |target - old|`, the move
has the sign of `target - old`, a channel off its target gets at least 1 mV nearer, and a value in -5000..5000 stays
there (42_slew.md R198, R201). -/
def Obligations.SlewMovesTowardItsTarget : Prop :=
  ∀ (s t : State) (toggleLink : Bool), exec (.slStep toggleLink) s = .next t →
    ∀ ch ∈ [(s.arg.r0, s.sl.cur0, t.sl.cur0), (s.arg.r1, s.sl.cur1, t.sl.cur1)],
      let target := max (-5000) (min ch.1.toInt 5000)
      let old := ch.2.1.toInt
      let new := ch.2.2.toInt
      (new - old).natAbs ≤ (target - old).natAbs ∧ (new - old).sign = (target - old).sign ∧
        (old ≠ target → (target - new).natAbs + 1 ≤ (target - old).natAbs) ∧
        (-5000 ≤ old → old ≤ 5000 → -5000 ≤ new ∧ new ≤ 5000)

/-- Progress: from any state, steps with constant targets and any times, pots, link toggles and waits between them bring
both channels to their targets after at most `|target - cur|` steps, and keep them there (42_slew.md R201). -/
def Obligations.SlewReachesItsTarget : Prop :=
  ∀ σ : Nat → State,
    (∀ k, ∃ (now pots : Word) (toggleLink : Bool),
      exec (.slStep toggleLink) { σ k with arg := { (σ k).arg with r2 := now, r3 := pots } } = .next (σ (k + 1))) →
    ∀ n : Nat,
      ((max (-5000) (min (σ 0).arg.r0.toInt 5000) - (σ 0).sl.cur0.toInt).natAbs ≤ n →
        (σ n).sl.cur0.toInt = max (-5000) (min (σ 0).arg.r0.toInt 5000)) ∧
      ((max (-5000) (min (σ 0).arg.r1.toInt 5000) - (σ 0).sl.cur1.toInt).natAbs ≤ n →
        (σ n).sl.cur1.toInt = max (-5000) (min (σ 0).arg.r1.toInt 5000))

/-- Immediate tracking: with the rise and fall pots at 0, whatever the time, the shape and the link, both channels of a
machine in its domains are on their clamped targets after one step, provided the full range covers the bipolar span
(42_slew.md R195 to R197). -/
def Obligations.SlewPotZeroTracksAtOnce : Prop :=
  ∀ (s t : State) (toggleLink : Bool), SlewLegal s.sl → 10000 ≤ s.cfg.slFullrangeMv.toNat →
    s.arg.r3.toNat % 65536 = 0 → exec (.slStep toggleLink) s = .next t →
    t.sl.cur0.toInt = max (-5000) (min s.arg.r0.toInt 5000) ∧ t.sl.cur1.toInt = max (-5000) (min s.arg.r1.toInt 5000)

/-! ## The envelope -/

/-- The end-of-cycle bit (RES3 bit 8) is 1 on exactly the tick that completes Decay, and 0 on every other tick
(43_envelope.md R232). -/
def Obligations.EocExactlyWhenDecayCompletes : Prop :=
  ∀ (s t : State) (trig cvmod : Bool), exec (.envTick trig cvmod) s = .next t →
    (t.res.r3.getLsbD 8 = true ↔
      trig = false ∧ s.env.stage = .decay ∧ s.env.dur.toNat ≤ (s.arg.r0 - s.env.start).toNat)

/-- CV modulation of the attack time, with a legal dead zone dz: none for |cv| ≤ dz; beyond it, with frac the part of
the way from dz to 5 V, shorter by half of `base * frac / 32768` for positive CV and longer by the whole of it for
negative CV, so halved at +5 V and beyond and doubled at -5 V and beyond; each clamped to the duration range
(43_envelope.md R223; 90_conflicts.md C4). -/
def Obligations.CvHalvesAndDoublesAttack : Prop :=
  ∀ (cfg : CfgRegs) (base cv : Int), cfg.envCvDzMv.toNat ≤ 4999 →
    let tmin : Int := cfg.envTminUs.toNat
    let tmax : Int := cfg.envTmaxUs.toNat
    let dz : Int := cfg.envCvDzMv.toNat
    let frac : Int := (min cv.natAbs 5000 - dz) * 32768 / (5000 - dz)
    ((cv.natAbs : Int) ≤ dz → cvModulate cfg base cv = clamp base tmin tmax) ∧
    (dz < cv →
      cvModulate cfg base cv = clamp (base - Int.tdiv (Int.tdiv (base * frac) 32768) 2) tmin tmax) ∧
    (cv < -dz → cvModulate cfg base cv = clamp (base + Int.tdiv (base * frac) 32768) tmin tmax) ∧
    (5000 ≤ cv → cvModulate cfg base cv = clamp (base - Int.tdiv base 2) tmin tmax) ∧
    (cv ≤ -5000 → cvModulate cfg base cv = clamp (2 * base) tmin tmax) ∧
    (tmin ≤ tmax → tmin ≤ cvModulate cfg base cv ∧ cvModulate cfg base cv ≤ tmax)

/-- Inside a stage the envelope's value at a tick depends on the tick's `now`, not on the ticks before it: an extra tick
at another time inside the same stage changes neither the envelope nor the results of the next (70_reset_and_hazards.md
R331). -/
def Obligations.EnvValueDependsOnlyOnNow : Prop :=
  ∀ (s : State) (now : Word) (c c' : Bool), s.env.stage ≠ .idle →
    (now - s.env.start).toNat < s.env.dur.toNat →
    ∃ t u : State,
      exec (.envTick false c) { s with arg := { s.arg with r0 := now } } = .next t ∧
      exec (.envTick false c') s = .next u ∧
      exec (.envTick false c') { t with arg := s.arg } = .next u

/-! ## The noise generator -/

/-- The xorshift step maps no two seeds to one, and 0 is its fixed point: a seed of 0 stays 0, and no other seed ever
becomes 0 (44_noise.md R251; 10_state.md R60; 93_implementation_defined.md I34). -/
def Obligations.XorshiftIsInjective : Prop :=
  xorshift 0 = 0 ∧ ∀ x y : Word, xorshift x = xorshift y → x = y

/-- The window: its half-width lies in 0..5000, a draw's value lies within it around 5000 mV, and the low 12 bits reach
both ends (44_noise.md R255). -/
def Obligations.DrawsFillTheWindow : Prop :=
  (∀ pot3 : Int, 0 ≤ windowHalf pot3 ∧ windowHalf pot3 ≤ 5000) ∧
  ∀ (w : Int) (r : Word), 0 ≤ w → w ≤ 5000 →
    5000 - w ≤ drawValue w r ∧ drawValue w r ≤ 5000 + w ∧
    (r.toNat % 4096 = 0 → drawValue w r = 5000 - w) ∧ (r.toNat % 4096 = 4095 → drawValue w r = 5000 + w)

/-- Every note of a scale in 0..120 quantizes to itself, in the chromatic scale every semitone (44_noise.md R254). -/
def Obligations.ScaleNotesAreFixedPoints : Prop :=
  ∀ (sc : Scale) (k : Int), 0 ≤ k → k ≤ 120 → IsScaleNote sc k → quantize ((k * 1000 + 6) / 12) sc = (k * 1000 + 6) / 12

/-- Quantizing is idempotent: what a scale gives is a value that the scale keeps (44_noise.md R252, R254). -/
def Obligations.QuantizeIsIdempotent : Prop :=
  ∀ (v : Int) (sc : Scale), quantize (quantize v sc) sc = quantize v sc

/-- A channel whose raw pot exceeds the threshold never fires without CLK, however long it waits; when both do, a tick
without CLK takes no draw and changes no value and no timestamp (44_noise.md R256, R257, R270). -/
def Obligations.ExternalChannelsWaitForTheClock : Prop :=
  ∀ (s : State) (hold : Bool), ∃ t : State, exec (.nzTick false hold) s = .next t ∧
    (s.cfg.nzExtThresh.toNat < s.arg.r2.toNat % 65536 → t.nz.cur0 = s.nz.cur0 ∧ t.nz.last0 = s.nz.last0) ∧
    (s.cfg.nzExtThresh.toNat < s.arg.r2.toNat / 65536 → t.nz.cur1 = s.nz.cur1 ∧ t.nz.last1 = s.nz.last1) ∧
    (s.cfg.nzExtThresh.toNat < s.arg.r2.toNat % 65536 → s.cfg.nzExtThresh.toNat < s.arg.r2.toNat / 65536 →
      t.cfg.nzSeed = s.cfg.nzSeed)

/-- The pulse output after a tick with HOLD, which never arms it: on exactly while it was armed and its deadline is ahead,
when the host keeps its duties on time; and once off it stays off, whatever the time (44_noise.md R258, R262;
70_reset_and_hazards.md R322). -/
def Obligations.PulseEndsAtItsDeadline : Prop :=
  ∀ (s : State) (clk : Bool), ∃ t : State, exec (.nzTick clk true) s = .next t ∧
    (∀ d n : Nat, PulseDuty d n → s.nz.armedUntil = clockReading d → s.arg.r0 = clockReading n →
      (t.res.r2.getLsbD 0 = true ↔ s.nz.armed = true ∧ n < d)) ∧
    (t.res.r2.getLsbD 0 = t.nz.armed) ∧
    (s.nz.armed = false → t.nz.armed = false)

/-! ## Rules about the whole machine -/

/-- No legal command writes CMD, STATUS, ERR_CMD, ERR_ADDR, an ARG register, a configuration register other than
NZ_SEED, or the host's side of the model; and only NZ.TICK and NZ.DRAW write NZ_SEED (10_state.md R32, R33, R35, R42,
R60). The host's side of the model is logs 1 and 2. -/
def Obligations.CommandsKeepHostRegisters : Prop :=
  ∀ (i : Instr) (s t : State), i.wf = true → exec i s = .next t →
    t.cmd = s.cmd ∧ t.status = s.status ∧ t.errCmd = s.errCmd ∧ t.errAddr = s.errAddr ∧ t.arg = s.arg ∧
    t.cfg = { s.cfg with nzSeed := t.cfg.nzSeed } ∧
    (i.op ≠ .nzTick → i.op ≠ .nzDraw → t.cfg.nzSeed = s.cfg.nzSeed) ∧
    t.params = s.params ∧ t.pending = s.pending ∧ t.readLog = s.readLog

/-- The engines share no state: replacing an engine's state before a command of another engine gives the same next state
with that engine's state replaced, so the command neither reads nor writes it (10_state.md R61). -/
def Obligations.EnginesShareNoState : Prop :=
  ∀ (i : Instr) (s t : State), i.wf = true → exec i s = .next t →
    (i.op ≠ .slStep → ∀ x : Slew, exec i { s with sl := x } = .next { t with sl := x }) ∧
    (i.op ≠ .envTick → ∀ x : Env, exec i { s with env := x } = .next { t with env := x }) ∧
    (i.op ≠ .nzTick → ∀ x : Noise, exec i { s with nz := x } = .next { t with nz := x }) ∧
    (i.op ≠ .nzTick → i.op ≠ .nzDraw → ∀ x : Word,
      exec i { s with cfg := { s.cfg with nzSeed := x } } = .next { t with cfg := { t.cfg with nzSeed := x } }) ∧
    (i ≠ .smProcess 0 → i ≠ .smReset 0 → ∀ x : Smoother, exec i { s with sm0 := x } = .next { t with sm0 := x }) ∧
    (i ≠ .smProcess 1 → i ≠ .smReset 1 → ∀ x : Smoother, exec i { s with sm1 := x } = .next { t with sm1 := x })

/-- Only commands write RES: each legal command other than NOP writes all four, so that its next state does not depend
on what they held; NOP, an illegal command and every access other than a legal write to CMD leave them, reset apart
(10_state.md R36). -/
def Obligations.OnlyCommandsWriteResults : Prop :=
  (∀ (i : Instr) (s : State) (q : Quad), i.wf = true → i ≠ .nop → exec i { s with res := q } = exec i s) ∧
  (∀ s t : State, exec .nop s = .next t → t.res = s.res) ∧
  (∀ (s t : State) (w : Word) (e : DecodeError) (rest : List Access),
    s.pending = .write 0x00 .word w :: rest → decode w = .error e → step s = .next t → t.res = s.res) ∧
  (∀ (s t : State) (a : Access) (rest : List Access), s.pending = a :: rest → a ≠ .reset →
    (∀ w, a ≠ .write 0x00 .word w) → step s = .next t → t.res = s.res)

/-- One access raises at most one error: from a machine with no error recorded, one step leaves STATUS at 0, or at 1
with ERR_ADDR as it was, or at 2 with ERR_CMD as it was (60_exceptions.md R294, R295); a pending reset apart, which
records nothing. -/
def Obligations.OneAccessRaisesOneError : Prop :=
  ∀ s t : State, s.status = 0 → s.pending.head? ≠ some .reset → step s = .next t →
    (t.status = 0 ∧ t.errCmd = s.errCmd ∧ t.errAddr = s.errAddr) ∨
    (t.status = 1 ∧ t.errAddr = s.errAddr ∧ t.errCmd = t.cmd) ∨
    (t.status = 2 ∧ t.errCmd = s.errCmd ∧ t.cmd = s.cmd)

/-- The error bits are sticky: a step clears no bit of STATUS unless its access is a legal write to STATUS or a reset
(10_state.md R32; 60_exceptions.md R291, R292, R298). -/
def Obligations.ErrorBitsAreSticky : Prop :=
  ∀ s t : State, s.pending.head? ≠ some .reset → (∀ v, s.pending.head? ≠ some (.write 0x04 .word v)) →
    step s = .next t → s.status &&& t.status = s.status

/-- A step changes CMD, an ARG register, or a configuration register other than NZ_SEED only by a legal write to that
register or by a reset: with any other access it keeps its value (10_state.md R31, R35, R42). -/
def Obligations.HostRegistersChangeOnlyByTheirWrites : Prop :=
  ∀ s t : State, s.pending.head? ≠ some .reset → step s = .next t →
    ((∀ v, s.pending.head? ≠ some (.write 0x00 .word v)) → t.cmd = s.cmd) ∧
    ((∀ v, s.pending.head? ≠ some (.write 0x10 .word v)) → t.arg.r0 = s.arg.r0) ∧
    ((∀ v, s.pending.head? ≠ some (.write 0x14 .word v)) → t.arg.r1 = s.arg.r1) ∧
    ((∀ v, s.pending.head? ≠ some (.write 0x18 .word v)) → t.arg.r2 = s.arg.r2) ∧
    ((∀ v, s.pending.head? ≠ some (.write 0x1C .word v)) → t.arg.r3 = s.arg.r3) ∧
    (∀ n : CfgName, n ≠ .nzSeed → (∀ v, s.pending.head? ≠ some (.write (cfgOffset n) .word v)) →
      readCfg n t.cfg = readCfg n s.cfg)

/-- Every access completes, from every state: the step gives a next state (30_encoding.md R110; 70_reset_and_hazards.md
R326). The rest is the model's choice: that the step takes the access off the host's list, and with none pending gives a
next state too, is log 2; that it keeps the OPEN parameters is log 1; that the two errors are next states, so that there is
never a fault and never a refusal, is log 8. -/
def Obligations.EveryAccessCompletes : Prop :=
  ∀ s : State, ∃ t : State, step s = .next t ∧ t.pending = s.pending.tail ∧ t.params = s.params

/-- Every item of state can be read: two machines whose registers all read alike hold the same state, but for reserved
STATUS bits and the model's own fields (10_state.md R30, R63, R64). -/
def Obligations.NoStateIsHidden : Prop :=
  ∀ s t : State, s.status.toNat < 4 → t.status.toNat < 4 →
    s.params = t.params → s.pending = t.pending → s.readLog = t.readLog →
    (∀ r : Reg, readReg r s = readReg r t) → s = t

/-- Every step keeps every item of state in the domain that 10_state.md gives it: the configuration registers legal, the
slewed values in -5000..5000, the envelope value in 0..32768 and 0 in Idle, the noise values in 0..10000, the error
registers as R32 to R34 say (10_state.md R40, R41, R51, R52, R53; 42_slew.md R198). -/
def Obligations.EveryStepKeepsTheDomains : Prop :=
  ∀ s t : State, InDomains s → step s = .next t → InDomains t

/-- The reset state of every machine with legal OPEN parameters is in its domains, the model's own reset state among
them (10_state.md R40, R70). Which parameters State.reset takes is the model's choice, DESIGN CHOICE of log 1. -/
def Obligations.ResetIsInTheDomains : Prop :=
  (∀ p : Config.Params, p.Legal → InDomains (State.resetWith p)) ∧ InDomains State.reset
end

