-- ==== Sys2Proof/Laws/Arith.lean ====
section
/-! SUPPORT. What the primitives and kernel functions give: ranges, signs, and the narrowing to 32 bits. -/

namespace Sys2Proof.Laws

open Sys2Proof.Machine

/-! ## Narrowing and reading -/

@[simp] theorem u32_s32 (p : Word) : u32 (s32 p) = p := by simp [u32, s32]

theorem s32_lower (p : Word) : -2147483648 ≤ s32 p := by have := BitVec.le_toInt p; simp [s32]; omega

theorem s32_upper (p : Word) : s32 p < 2147483648 := by have := BitVec.toInt_lt (x := p); simp [s32]; omega

theorem s32_u32 {v : Int} (hlo : -2147483648 ≤ v) (hhi : v < 2147483648) : s32 (u32 v) = v := by
  unfold s32 u32
  rw [BitVec.toInt_ofInt]
  apply Int.bmod_eq_of_le <;> norm_num <;> omega

theorem unsigned_nonneg (p : Word) : 0 ≤ unsigned p := by simp [unsigned]

theorem unsigned_lt (p : Word) : unsigned p < 4294967296 := by have := p.isLt; simp [unsigned]; omega

theorem unsigned_u32 {v : Int} (hlo : 0 ≤ v) (hhi : v < 4294967296) : unsigned (u32 v) = v := by
  unfold unsigned u32
  rw [BitVec.toNat_ofInt]
  norm_num
  omega

theorem toNat_u32 {v : Int} (hlo : 0 ≤ v) (hhi : v < 4294967296) : (u32 v).toNat = v.toNat := by
  have h := unsigned_u32 hlo hhi
  simp only [unsigned] at h
  omega

@[simp] theorem u32_unsigned (p : Word) : u32 (unsigned p) = p := by
  apply BitVec.eq_of_toNat_eq
  have h1 := unsigned_nonneg p
  have h2 := unsigned_lt p
  rw [toNat_u32 h1 h2]
  simp [unsigned]

theorem elapsed_nonneg (now t0 : Word) : 0 ≤ elapsed now t0 := unsigned_nonneg _

theorem elapsed_lt (now t0 : Word) : elapsed now t0 < 4294967296 := unsigned_lt _

/-! ## clamp -/

theorem clamp_cases (v lo hi : Int) :
    (v < lo ∧ clamp v lo hi = lo) ∨ (lo ≤ v ∧ hi < v ∧ clamp v lo hi = hi) ∨ (lo ≤ v ∧ v ≤ hi ∧ clamp v lo hi = v) := by
  unfold clamp
  split
  · exact .inl ⟨‹_›, rfl⟩
  · split
    · exact .inr (.inl ⟨by omega, ‹_›, rfl⟩)
    · exact .inr (.inr ⟨by omega, by omega, rfl⟩)

theorem clamp_range {lo hi : Int} (h : lo ≤ hi) (v : Int) : lo ≤ clamp v lo hi ∧ clamp v lo hi ≤ hi := by
  rcases clamp_cases v lo hi with ⟨_, e⟩ | ⟨_, _, e⟩ | ⟨_, _, e⟩ <;> omega

/-! ## mulQ15 -/

theorem mulQ15_of_nonneg {v g : Int} (h : 0 ≤ v * g) : mulQ15 v g = v * g / 32768 := by
  simp [mulQ15, tdiv, Int.tdiv_eq_ediv_of_nonneg h]

theorem mulQ15_neg_left (v g : Int) : mulQ15 (-v) g = -mulQ15 v g := by
  simp [mulQ15, tdiv, Int.neg_tdiv]

/-- A non-negative value times a gain in 0..32768 stays between 0 and the value. -/
theorem mulQ15_range {v g : Int} (hv : 0 ≤ v) (hg : 0 ≤ g) (hg1 : g ≤ 32768) :
    0 ≤ mulQ15 v g ∧ mulQ15 v g ≤ v := by
  have h0 : 0 ≤ v * g := mul_nonneg hv hg
  rw [mulQ15_of_nonneg h0]
  have h1 : v * g ≤ v * 32768 := mul_le_mul_of_nonneg_left hg1 hv
  constructor <;> omega

/-- With a gain in 0..32768 the product has the value's sign and at most its magnitude. -/
theorem mulQ15_toward_zero {v g : Int} (hg : 0 ≤ g) (hg1 : g ≤ 32768) :
    (0 ≤ v → 0 ≤ mulQ15 v g ∧ mulQ15 v g ≤ v) ∧ (v ≤ 0 → v ≤ mulQ15 v g ∧ mulQ15 v g ≤ 0) := by
  refine ⟨fun h => mulQ15_range h hg hg1, fun h => ?_⟩
  have := mulQ15_range (v := -v) (by omega) hg hg1
  rw [mulQ15_neg_left] at this
  omega

/-! ## blendQ15 -/

theorem blendQ15_of_nonneg {a b t : Int} (h : 0 ≤ a * (32768 - t) + b * t) :
    blendQ15 a b t = (a * (32768 - t) + b * t) / 32768 := by
  simp [blendQ15, tdiv, Int.tdiv_eq_ediv_of_nonneg h]

theorem blendQ15_neg (a b t : Int) : blendQ15 (-a) (-b) t = -blendQ15 a b t := by
  simp only [blendQ15, tdiv]
  rw [← Int.neg_tdiv]
  congr 1
  ring

/-- Blending two values of 0..m with t in 0..32768 stays in 0..m. -/
theorem blendQ15_range {a b t m : Int} (ha : 0 ≤ a) (ham : a ≤ m) (hb : 0 ≤ b) (hbm : b ≤ m) (ht : 0 ≤ t)
    (ht1 : t ≤ 32768) : 0 ≤ blendQ15 a b t ∧ blendQ15 a b t ≤ m := by
  have h1 : 0 ≤ a * (32768 - t) := mul_nonneg ha (by omega)
  have h2 : 0 ≤ b * t := mul_nonneg hb ht
  have h3 : a * (32768 - t) ≤ m * (32768 - t) := mul_le_mul_of_nonneg_right ham (by omega)
  have h4 : b * t ≤ m * t := mul_le_mul_of_nonneg_right hbm ht
  have h5 : m * (32768 - t) + m * t = m * 32768 := by ring
  rw [blendQ15_of_nonneg (by omega)]
  constructor <;> omega

/-- Blending two values of m..0, m negative, stays in m..0. -/
theorem blendQ15_range_neg {a b t m : Int} (ha : a ≤ 0) (ham : m ≤ a) (hb : b ≤ 0) (hbm : m ≤ b) (ht : 0 ≤ t)
    (ht1 : t ≤ 32768) : m ≤ blendQ15 a b t ∧ blendQ15 a b t ≤ 0 := by
  have h := blendQ15_range (a := -a) (b := -b) (m := -m) (t := t) (by omega) (by omega) (by omega) (by omega) ht ht1
  rw [blendQ15_neg] at h
  omega

/-! ## Pots -/

theorem u8ToQ15_range (v : Int) : 0 ≤ u8ToQ15 v ∧ u8ToQ15 v ≤ 32768 := by
  unfold u8ToQ15 floorDiv
  split
  · omega
  · split <;> omega

theorem potCurve_range (p : Int) : 0 ≤ potCurve p ∧ potCurve p ≤ 32768 := by
  have h := u8ToQ15_range p
  have h1 := mulQ15_range h.1 h.1 h.2
  have h2 := mulQ15_range h1.1 h.1 h.2
  exact ⟨h2.1, by unfold potCurve; omega⟩

/-! ## Signs -/

theorem sgn_of_pos {d : Int} (h : 0 < d) : sgn d = 1 := by simp [sgn, Int.sign_eq_one_of_pos h]

theorem sgn_of_neg {d : Int} (h : d < 0) : sgn d = -1 := by simp [sgn, Int.sign_eq_neg_one_of_neg h]

theorem absInt_of_nonneg {d : Int} (h : 0 ≤ d) : absInt d = d := by simp [absInt]; omega

theorem absInt_of_nonpos {d : Int} (h : d ≤ 0) : absInt d = -d := by simp [absInt]; omega

theorem absInt_nonneg (d : Int) : 0 ≤ absInt d := by simp [absInt]

end Sys2Proof.Laws
end

