-- ==== Sys2Proof/Laws/Operands.lean ====
section
/-! SUPPORT. The operand forms of 30_encoding.md R116 as numbers. -/

namespace Sys2Proof.Laws

open Sys2Proof.Machine

theorem pot0_eq (w : Word) : pot0 w = ((w.toNat % 256 : Nat) : Int) := by
  simp [pot0, byteLane, BitVec.extractLsb'_toNat]

theorem pot1_eq (w : Word) : pot1 w = ((w.toNat / 256 % 256 : Nat) : Int) := by
  simp [pot1, byteLane, BitVec.extractLsb'_toNat, Nat.shiftRight_eq_div_pow]

theorem pot2_eq (w : Word) : pot2 w = ((w.toNat / 65536 % 256 : Nat) : Int) := by
  simp [pot2, byteLane, BitVec.extractLsb'_toNat, Nat.shiftRight_eq_div_pow]

theorem rawLow_eq (w : Word) : rawLow w = ((w.toNat % 65536 : Nat) : Int) := by
  simp [rawLow, BitVec.extractLsb'_toNat]

theorem rawHigh_eq (w : Word) : rawHigh w = ((w.toNat / 65536 : Nat) : Int) := by
  have := w.isLt
  simp only [rawHigh, BitVec.extractLsb'_toNat, Nat.shiftRight_eq_div_pow]
  omega

/-- clamp with its ends in order is the usual bounding. -/
theorem clamp_eq_max_min {v lo hi : Int} (h : lo ≤ hi) : clamp v lo hi = max lo (min v hi) := by
  rcases clamp_cases v lo hi with ⟨_, e⟩ | ⟨_, _, e⟩ | ⟨_, _, e⟩ <;> omega

end Sys2Proof.Laws
end

