-- ==== Sys2Proof/Laws/State.lean ====
section
/-! SUPPORT. The small lemmas of the state's updates: one per field per update, so that no proof unfolds an update. -/

namespace Sys2Proof.Laws

open Sys2Proof.Machine

/-! ## writeRes -/

@[simp] theorem writeRes_cmd (r0 r1 r2 r3 : Word) (s : State) : (writeRes r0 r1 r2 r3 s).cmd = s.cmd := rfl
@[simp] theorem writeRes_status (r0 r1 r2 r3 : Word) (s : State) : (writeRes r0 r1 r2 r3 s).status = s.status := rfl
@[simp] theorem writeRes_errCmd (r0 r1 r2 r3 : Word) (s : State) : (writeRes r0 r1 r2 r3 s).errCmd = s.errCmd := rfl
@[simp] theorem writeRes_errAddr (r0 r1 r2 r3 : Word) (s : State) :
    (writeRes r0 r1 r2 r3 s).errAddr = s.errAddr := rfl
@[simp] theorem writeRes_arg (r0 r1 r2 r3 : Word) (s : State) : (writeRes r0 r1 r2 r3 s).arg = s.arg := rfl
@[simp] theorem writeRes_res (r0 r1 r2 r3 : Word) (s : State) :
    (writeRes r0 r1 r2 r3 s).res = { r0 := r0, r1 := r1, r2 := r2, r3 := r3 } := rfl
@[simp] theorem writeRes_cfg (r0 r1 r2 r3 : Word) (s : State) : (writeRes r0 r1 r2 r3 s).cfg = s.cfg := rfl
@[simp] theorem writeRes_sm0 (r0 r1 r2 r3 : Word) (s : State) : (writeRes r0 r1 r2 r3 s).sm0 = s.sm0 := rfl
@[simp] theorem writeRes_sm1 (r0 r1 r2 r3 : Word) (s : State) : (writeRes r0 r1 r2 r3 s).sm1 = s.sm1 := rfl
@[simp] theorem writeRes_sl (r0 r1 r2 r3 : Word) (s : State) : (writeRes r0 r1 r2 r3 s).sl = s.sl := rfl
@[simp] theorem writeRes_env (r0 r1 r2 r3 : Word) (s : State) : (writeRes r0 r1 r2 r3 s).env = s.env := rfl
@[simp] theorem writeRes_nz (r0 r1 r2 r3 : Word) (s : State) : (writeRes r0 r1 r2 r3 s).nz = s.nz := rfl
@[simp] theorem writeRes_params (r0 r1 r2 r3 : Word) (s : State) : (writeRes r0 r1 r2 r3 s).params = s.params := rfl
@[simp] theorem writeRes_pending (r0 r1 r2 r3 : Word) (s : State) :
    (writeRes r0 r1 r2 r3 s).pending = s.pending := rfl
@[simp] theorem writeRes_readLog (r0 r1 r2 r3 : Word) (s : State) :
    (writeRes r0 r1 r2 r3 s).readLog = s.readLog := rfl

/-! ## writeResult -/

@[simp] theorem writeResult_cmd (v : Int) (s : State) : (writeResult v s).cmd = s.cmd := rfl
@[simp] theorem writeResult_status (v : Int) (s : State) : (writeResult v s).status = s.status := rfl
@[simp] theorem writeResult_errCmd (v : Int) (s : State) : (writeResult v s).errCmd = s.errCmd := rfl
@[simp] theorem writeResult_errAddr (v : Int) (s : State) : (writeResult v s).errAddr = s.errAddr := rfl
@[simp] theorem writeResult_arg (v : Int) (s : State) : (writeResult v s).arg = s.arg := rfl
@[simp] theorem writeResult_res (v : Int) (s : State) :
    (writeResult v s).res = { r0 := u32 v, r1 := 0, r2 := 0, r3 := 0 } := rfl
@[simp] theorem writeResult_cfg (v : Int) (s : State) : (writeResult v s).cfg = s.cfg := rfl
@[simp] theorem writeResult_sm0 (v : Int) (s : State) : (writeResult v s).sm0 = s.sm0 := rfl
@[simp] theorem writeResult_sm1 (v : Int) (s : State) : (writeResult v s).sm1 = s.sm1 := rfl
@[simp] theorem writeResult_sl (v : Int) (s : State) : (writeResult v s).sl = s.sl := rfl
@[simp] theorem writeResult_env (v : Int) (s : State) : (writeResult v s).env = s.env := rfl
@[simp] theorem writeResult_nz (v : Int) (s : State) : (writeResult v s).nz = s.nz := rfl
@[simp] theorem writeResult_params (v : Int) (s : State) : (writeResult v s).params = s.params := rfl
@[simp] theorem writeResult_pending (v : Int) (s : State) : (writeResult v s).pending = s.pending := rfl
@[simp] theorem writeResult_readLog (v : Int) (s : State) : (writeResult v s).readLog = s.readLog := rfl

/-! ## raiseIllegalCommand -/

@[simp] theorem raiseIllegalCommand_cmd (w : Word) (s : State) : (raiseIllegalCommand w s).cmd = s.cmd := rfl
@[simp] theorem raiseIllegalCommand_status (w : Word) (s : State) :
    (raiseIllegalCommand w s).status = statusSet .illegalCmd s.status := rfl
@[simp] theorem raiseIllegalCommand_errCmd (w : Word) (s : State) : (raiseIllegalCommand w s).errCmd = w := rfl
@[simp] theorem raiseIllegalCommand_errAddr (w : Word) (s : State) :
    (raiseIllegalCommand w s).errAddr = s.errAddr := rfl
@[simp] theorem raiseIllegalCommand_arg (w : Word) (s : State) : (raiseIllegalCommand w s).arg = s.arg := rfl
@[simp] theorem raiseIllegalCommand_res (w : Word) (s : State) : (raiseIllegalCommand w s).res = s.res := rfl
@[simp] theorem raiseIllegalCommand_cfg (w : Word) (s : State) : (raiseIllegalCommand w s).cfg = s.cfg := rfl
@[simp] theorem raiseIllegalCommand_sm0 (w : Word) (s : State) : (raiseIllegalCommand w s).sm0 = s.sm0 := rfl
@[simp] theorem raiseIllegalCommand_sm1 (w : Word) (s : State) : (raiseIllegalCommand w s).sm1 = s.sm1 := rfl
@[simp] theorem raiseIllegalCommand_sl (w : Word) (s : State) : (raiseIllegalCommand w s).sl = s.sl := rfl
@[simp] theorem raiseIllegalCommand_env (w : Word) (s : State) : (raiseIllegalCommand w s).env = s.env := rfl
@[simp] theorem raiseIllegalCommand_nz (w : Word) (s : State) : (raiseIllegalCommand w s).nz = s.nz := rfl
@[simp] theorem raiseIllegalCommand_params (w : Word) (s : State) : (raiseIllegalCommand w s).params = s.params := rfl
@[simp] theorem raiseIllegalCommand_pending (w : Word) (s : State) :
    (raiseIllegalCommand w s).pending = s.pending := rfl
@[simp] theorem raiseIllegalCommand_readLog (w : Word) (s : State) :
    (raiseIllegalCommand w s).readLog = s.readLog := rfl

/-! ## raiseBadAccess -/

@[simp] theorem raiseBadAccess_cmd (off : Offset) (s : State) : (raiseBadAccess off s).cmd = s.cmd := rfl
@[simp] theorem raiseBadAccess_status (off : Offset) (s : State) :
    (raiseBadAccess off s).status = statusSet .badAccess s.status := rfl
@[simp] theorem raiseBadAccess_errCmd (off : Offset) (s : State) : (raiseBadAccess off s).errCmd = s.errCmd := rfl
@[simp] theorem raiseBadAccess_errAddr (off : Offset) (s : State) : (raiseBadAccess off s).errAddr = zext32 off := rfl
@[simp] theorem raiseBadAccess_arg (off : Offset) (s : State) : (raiseBadAccess off s).arg = s.arg := rfl
@[simp] theorem raiseBadAccess_res (off : Offset) (s : State) : (raiseBadAccess off s).res = s.res := rfl
@[simp] theorem raiseBadAccess_cfg (off : Offset) (s : State) : (raiseBadAccess off s).cfg = s.cfg := rfl
@[simp] theorem raiseBadAccess_sm0 (off : Offset) (s : State) : (raiseBadAccess off s).sm0 = s.sm0 := rfl
@[simp] theorem raiseBadAccess_sm1 (off : Offset) (s : State) : (raiseBadAccess off s).sm1 = s.sm1 := rfl
@[simp] theorem raiseBadAccess_sl (off : Offset) (s : State) : (raiseBadAccess off s).sl = s.sl := rfl
@[simp] theorem raiseBadAccess_env (off : Offset) (s : State) : (raiseBadAccess off s).env = s.env := rfl
@[simp] theorem raiseBadAccess_nz (off : Offset) (s : State) : (raiseBadAccess off s).nz = s.nz := rfl
@[simp] theorem raiseBadAccess_params (off : Offset) (s : State) : (raiseBadAccess off s).params = s.params := rfl
@[simp] theorem raiseBadAccess_pending (off : Offset) (s : State) : (raiseBadAccess off s).pending = s.pending := rfl
@[simp] theorem raiseBadAccess_readLog (off : Offset) (s : State) : (raiseBadAccess off s).readLog = s.readLog := rfl

/-! ## clearErrors -/

@[simp] theorem clearErrors_cmd (v : Word) (s : State) : (clearErrors v s).cmd = s.cmd := rfl
@[simp] theorem clearErrors_status (v : Word) (s : State) : (clearErrors v s).status = statusWrite v s.status := rfl
@[simp] theorem clearErrors_errCmd (v : Word) (s : State) : (clearErrors v s).errCmd = s.errCmd := rfl
@[simp] theorem clearErrors_errAddr (v : Word) (s : State) : (clearErrors v s).errAddr = s.errAddr := rfl
@[simp] theorem clearErrors_arg (v : Word) (s : State) : (clearErrors v s).arg = s.arg := rfl
@[simp] theorem clearErrors_res (v : Word) (s : State) : (clearErrors v s).res = s.res := rfl
@[simp] theorem clearErrors_cfg (v : Word) (s : State) : (clearErrors v s).cfg = s.cfg := rfl
@[simp] theorem clearErrors_sm0 (v : Word) (s : State) : (clearErrors v s).sm0 = s.sm0 := rfl
@[simp] theorem clearErrors_sm1 (v : Word) (s : State) : (clearErrors v s).sm1 = s.sm1 := rfl
@[simp] theorem clearErrors_sl (v : Word) (s : State) : (clearErrors v s).sl = s.sl := rfl
@[simp] theorem clearErrors_env (v : Word) (s : State) : (clearErrors v s).env = s.env := rfl
@[simp] theorem clearErrors_nz (v : Word) (s : State) : (clearErrors v s).nz = s.nz := rfl
@[simp] theorem clearErrors_params (v : Word) (s : State) : (clearErrors v s).params = s.params := rfl
@[simp] theorem clearErrors_pending (v : Word) (s : State) : (clearErrors v s).pending = s.pending := rfl
@[simp] theorem clearErrors_readLog (v : Word) (s : State) : (clearErrors v s).readLog = s.readLog := rfl

/-! ## storeCmd -/

@[simp] theorem storeCmd_cmd (w : Word) (s : State) : (storeCmd w s).cmd = w := rfl
@[simp] theorem storeCmd_status (w : Word) (s : State) : (storeCmd w s).status = s.status := rfl
@[simp] theorem storeCmd_errCmd (w : Word) (s : State) : (storeCmd w s).errCmd = s.errCmd := rfl
@[simp] theorem storeCmd_errAddr (w : Word) (s : State) : (storeCmd w s).errAddr = s.errAddr := rfl
@[simp] theorem storeCmd_arg (w : Word) (s : State) : (storeCmd w s).arg = s.arg := rfl
@[simp] theorem storeCmd_res (w : Word) (s : State) : (storeCmd w s).res = s.res := rfl
@[simp] theorem storeCmd_cfg (w : Word) (s : State) : (storeCmd w s).cfg = s.cfg := rfl
@[simp] theorem storeCmd_sm0 (w : Word) (s : State) : (storeCmd w s).sm0 = s.sm0 := rfl
@[simp] theorem storeCmd_sm1 (w : Word) (s : State) : (storeCmd w s).sm1 = s.sm1 := rfl
@[simp] theorem storeCmd_sl (w : Word) (s : State) : (storeCmd w s).sl = s.sl := rfl
@[simp] theorem storeCmd_env (w : Word) (s : State) : (storeCmd w s).env = s.env := rfl
@[simp] theorem storeCmd_nz (w : Word) (s : State) : (storeCmd w s).nz = s.nz := rfl
@[simp] theorem storeCmd_params (w : Word) (s : State) : (storeCmd w s).params = s.params := rfl
@[simp] theorem storeCmd_pending (w : Word) (s : State) : (storeCmd w s).pending = s.pending := rfl
@[simp] theorem storeCmd_readLog (w : Word) (s : State) : (storeCmd w s).readLog = s.readLog := rfl

/-! ## storeSeed -/

@[simp] theorem storeSeed_cmd (x : Word) (s : State) : (storeSeed x s).cmd = s.cmd := rfl
@[simp] theorem storeSeed_status (x : Word) (s : State) : (storeSeed x s).status = s.status := rfl
@[simp] theorem storeSeed_errCmd (x : Word) (s : State) : (storeSeed x s).errCmd = s.errCmd := rfl
@[simp] theorem storeSeed_errAddr (x : Word) (s : State) : (storeSeed x s).errAddr = s.errAddr := rfl
@[simp] theorem storeSeed_arg (x : Word) (s : State) : (storeSeed x s).arg = s.arg := rfl
@[simp] theorem storeSeed_res (x : Word) (s : State) : (storeSeed x s).res = s.res := rfl
@[simp] theorem storeSeed_cfg (x : Word) (s : State) : (storeSeed x s).cfg = { s.cfg with nzSeed := x } := rfl
@[simp] theorem storeSeed_sm0 (x : Word) (s : State) : (storeSeed x s).sm0 = s.sm0 := rfl
@[simp] theorem storeSeed_sm1 (x : Word) (s : State) : (storeSeed x s).sm1 = s.sm1 := rfl
@[simp] theorem storeSeed_sl (x : Word) (s : State) : (storeSeed x s).sl = s.sl := rfl
@[simp] theorem storeSeed_env (x : Word) (s : State) : (storeSeed x s).env = s.env := rfl
@[simp] theorem storeSeed_nz (x : Word) (s : State) : (storeSeed x s).nz = s.nz := rfl
@[simp] theorem storeSeed_params (x : Word) (s : State) : (storeSeed x s).params = s.params := rfl
@[simp] theorem storeSeed_pending (x : Word) (s : State) : (storeSeed x s).pending = s.pending := rfl
@[simp] theorem storeSeed_readLog (x : Word) (s : State) : (storeSeed x s).readLog = s.readLog := rfl

/-! ## returnValue -/

@[simp] theorem returnValue_cmd (v : Word) (s : State) : (returnValue v s).cmd = s.cmd := rfl
@[simp] theorem returnValue_status (v : Word) (s : State) : (returnValue v s).status = s.status := rfl
@[simp] theorem returnValue_errCmd (v : Word) (s : State) : (returnValue v s).errCmd = s.errCmd := rfl
@[simp] theorem returnValue_errAddr (v : Word) (s : State) : (returnValue v s).errAddr = s.errAddr := rfl
@[simp] theorem returnValue_arg (v : Word) (s : State) : (returnValue v s).arg = s.arg := rfl
@[simp] theorem returnValue_res (v : Word) (s : State) : (returnValue v s).res = s.res := rfl
@[simp] theorem returnValue_cfg (v : Word) (s : State) : (returnValue v s).cfg = s.cfg := rfl
@[simp] theorem returnValue_sm0 (v : Word) (s : State) : (returnValue v s).sm0 = s.sm0 := rfl
@[simp] theorem returnValue_sm1 (v : Word) (s : State) : (returnValue v s).sm1 = s.sm1 := rfl
@[simp] theorem returnValue_sl (v : Word) (s : State) : (returnValue v s).sl = s.sl := rfl
@[simp] theorem returnValue_env (v : Word) (s : State) : (returnValue v s).env = s.env := rfl
@[simp] theorem returnValue_nz (v : Word) (s : State) : (returnValue v s).nz = s.nz := rfl
@[simp] theorem returnValue_params (v : Word) (s : State) : (returnValue v s).params = s.params := rfl
@[simp] theorem returnValue_pending (v : Word) (s : State) : (returnValue v s).pending = s.pending := rfl
@[simp] theorem returnValue_readLog (v : Word) (s : State) : (returnValue v s).readLog = s.readLog ++ [v] := rfl

/-! ## setPending -/

@[simp] theorem setPending_cmd (l : List Access) (s : State) : (setPending l s).cmd = s.cmd := rfl
@[simp] theorem setPending_status (l : List Access) (s : State) : (setPending l s).status = s.status := rfl
@[simp] theorem setPending_errCmd (l : List Access) (s : State) : (setPending l s).errCmd = s.errCmd := rfl
@[simp] theorem setPending_errAddr (l : List Access) (s : State) : (setPending l s).errAddr = s.errAddr := rfl
@[simp] theorem setPending_arg (l : List Access) (s : State) : (setPending l s).arg = s.arg := rfl
@[simp] theorem setPending_res (l : List Access) (s : State) : (setPending l s).res = s.res := rfl
@[simp] theorem setPending_cfg (l : List Access) (s : State) : (setPending l s).cfg = s.cfg := rfl
@[simp] theorem setPending_sm0 (l : List Access) (s : State) : (setPending l s).sm0 = s.sm0 := rfl
@[simp] theorem setPending_sm1 (l : List Access) (s : State) : (setPending l s).sm1 = s.sm1 := rfl
@[simp] theorem setPending_sl (l : List Access) (s : State) : (setPending l s).sl = s.sl := rfl
@[simp] theorem setPending_env (l : List Access) (s : State) : (setPending l s).env = s.env := rfl
@[simp] theorem setPending_nz (l : List Access) (s : State) : (setPending l s).nz = s.nz := rfl
@[simp] theorem setPending_params (l : List Access) (s : State) : (setPending l s).params = s.params := rfl
@[simp] theorem setPending_pending (l : List Access) (s : State) : (setPending l s).pending = l := rfl
@[simp] theorem setPending_readLog (l : List Access) (s : State) : (setPending l s).readLog = s.readLog := rfl

/-! ## queueCommandWrite -/

@[simp] theorem queueCommandWrite_cmd (w : Word) (s : State) : (queueCommandWrite w s).cmd = s.cmd := rfl
@[simp] theorem queueCommandWrite_status (w : Word) (s : State) : (queueCommandWrite w s).status = s.status := rfl
@[simp] theorem queueCommandWrite_errCmd (w : Word) (s : State) : (queueCommandWrite w s).errCmd = s.errCmd := rfl
@[simp] theorem queueCommandWrite_errAddr (w : Word) (s : State) : (queueCommandWrite w s).errAddr = s.errAddr := rfl
@[simp] theorem queueCommandWrite_arg (w : Word) (s : State) : (queueCommandWrite w s).arg = s.arg := rfl
@[simp] theorem queueCommandWrite_res (w : Word) (s : State) : (queueCommandWrite w s).res = s.res := rfl
@[simp] theorem queueCommandWrite_cfg (w : Word) (s : State) : (queueCommandWrite w s).cfg = s.cfg := rfl
@[simp] theorem queueCommandWrite_sm0 (w : Word) (s : State) : (queueCommandWrite w s).sm0 = s.sm0 := rfl
@[simp] theorem queueCommandWrite_sm1 (w : Word) (s : State) : (queueCommandWrite w s).sm1 = s.sm1 := rfl
@[simp] theorem queueCommandWrite_sl (w : Word) (s : State) : (queueCommandWrite w s).sl = s.sl := rfl
@[simp] theorem queueCommandWrite_env (w : Word) (s : State) : (queueCommandWrite w s).env = s.env := rfl
@[simp] theorem queueCommandWrite_nz (w : Word) (s : State) : (queueCommandWrite w s).nz = s.nz := rfl
@[simp] theorem queueCommandWrite_params (w : Word) (s : State) : (queueCommandWrite w s).params = s.params := rfl
@[simp] theorem queueCommandWrite_pending (w : Word) (s : State) :
    (queueCommandWrite w s).pending = .write 0x00 .word w :: s.pending := rfl
@[simp] theorem queueCommandWrite_readLog (w : Word) (s : State) : (queueCommandWrite w s).readLog = s.readLog := rfl

/-! ## resetBlock -/

@[simp] theorem resetBlock_cmd (s : State) : (resetBlock s).cmd = (State.resetWith s.params).cmd := rfl
@[simp] theorem resetBlock_status (s : State) : (resetBlock s).status = (State.resetWith s.params).status := rfl
@[simp] theorem resetBlock_errCmd (s : State) : (resetBlock s).errCmd = (State.resetWith s.params).errCmd := rfl
@[simp] theorem resetBlock_errAddr (s : State) : (resetBlock s).errAddr = (State.resetWith s.params).errAddr := rfl
@[simp] theorem resetBlock_arg (s : State) : (resetBlock s).arg = (State.resetWith s.params).arg := rfl
@[simp] theorem resetBlock_res (s : State) : (resetBlock s).res = (State.resetWith s.params).res := rfl
@[simp] theorem resetBlock_cfg (s : State) : (resetBlock s).cfg = (State.resetWith s.params).cfg := rfl
@[simp] theorem resetBlock_sm0 (s : State) : (resetBlock s).sm0 = (State.resetWith s.params).sm0 := rfl
@[simp] theorem resetBlock_sm1 (s : State) : (resetBlock s).sm1 = (State.resetWith s.params).sm1 := rfl
@[simp] theorem resetBlock_sl (s : State) : (resetBlock s).sl = (State.resetWith s.params).sl := rfl
@[simp] theorem resetBlock_env (s : State) : (resetBlock s).env = (State.resetWith s.params).env := rfl
@[simp] theorem resetBlock_nz (s : State) : (resetBlock s).nz = (State.resetWith s.params).nz := rfl
@[simp] theorem resetBlock_params (s : State) : (resetBlock s).params = s.params := rfl
@[simp] theorem resetBlock_pending (s : State) : (resetBlock s).pending = s.pending := rfl
@[simp] theorem resetBlock_readLog (s : State) : (resetBlock s).readLog = s.readLog := rfl

/-! ## storeSlew -/

@[simp] theorem storeSlew_cmd (x : Slew) (s : State) : (storeSlew x s).cmd = s.cmd := rfl
@[simp] theorem storeSlew_status (x : Slew) (s : State) : (storeSlew x s).status = s.status := rfl
@[simp] theorem storeSlew_errCmd (x : Slew) (s : State) : (storeSlew x s).errCmd = s.errCmd := rfl
@[simp] theorem storeSlew_errAddr (x : Slew) (s : State) : (storeSlew x s).errAddr = s.errAddr := rfl
@[simp] theorem storeSlew_arg (x : Slew) (s : State) : (storeSlew x s).arg = s.arg := rfl
@[simp] theorem storeSlew_res (x : Slew) (s : State) :
    (storeSlew x s).res = { r0 := x.smA.out, r1 := x.smB.out, r2 := x.cur0, r3 := x.cur1 } := rfl
@[simp] theorem storeSlew_cfg (x : Slew) (s : State) : (storeSlew x s).cfg = s.cfg := rfl
@[simp] theorem storeSlew_sm0 (x : Slew) (s : State) : (storeSlew x s).sm0 = s.sm0 := rfl
@[simp] theorem storeSlew_sm1 (x : Slew) (s : State) : (storeSlew x s).sm1 = s.sm1 := rfl
@[simp] theorem storeSlew_sl (x : Slew) (s : State) : (storeSlew x s).sl = x := rfl
@[simp] theorem storeSlew_env (x : Slew) (s : State) : (storeSlew x s).env = s.env := rfl
@[simp] theorem storeSlew_nz (x : Slew) (s : State) : (storeSlew x s).nz = s.nz := rfl
@[simp] theorem storeSlew_params (x : Slew) (s : State) : (storeSlew x s).params = s.params := rfl
@[simp] theorem storeSlew_pending (x : Slew) (s : State) : (storeSlew x s).pending = s.pending := rfl
@[simp] theorem storeSlew_readLog (x : Slew) (s : State) : (storeSlew x s).readLog = s.readLog := rfl

/-! ## storeEnv -/

@[simp] theorem storeEnv_cmd (x : EnvTickResult) (s : State) : (storeEnv x s).cmd = s.cmd := rfl
@[simp] theorem storeEnv_status (x : EnvTickResult) (s : State) : (storeEnv x s).status = s.status := rfl
@[simp] theorem storeEnv_errCmd (x : EnvTickResult) (s : State) : (storeEnv x s).errCmd = s.errCmd := rfl
@[simp] theorem storeEnv_errAddr (x : EnvTickResult) (s : State) : (storeEnv x s).errAddr = s.errAddr := rfl
@[simp] theorem storeEnv_arg (x : EnvTickResult) (s : State) : (storeEnv x s).arg = s.arg := rfl
@[simp] theorem storeEnv_res (x : EnvTickResult) (s : State) :
    (storeEnv x s).res = {
      r0 := envOutput x.env.value, r1 := envOutput x.env.value, r2 := x.env.value,
      r3 := (flagWord x.eoc <<< 8) ||| stageCode x.env.stage } := rfl
@[simp] theorem storeEnv_cfg (x : EnvTickResult) (s : State) : (storeEnv x s).cfg = s.cfg := rfl
@[simp] theorem storeEnv_sm0 (x : EnvTickResult) (s : State) : (storeEnv x s).sm0 = s.sm0 := rfl
@[simp] theorem storeEnv_sm1 (x : EnvTickResult) (s : State) : (storeEnv x s).sm1 = s.sm1 := rfl
@[simp] theorem storeEnv_sl (x : EnvTickResult) (s : State) : (storeEnv x s).sl = s.sl := rfl
@[simp] theorem storeEnv_env (x : EnvTickResult) (s : State) : (storeEnv x s).env = x.env := rfl
@[simp] theorem storeEnv_nz (x : EnvTickResult) (s : State) : (storeEnv x s).nz = s.nz := rfl
@[simp] theorem storeEnv_params (x : EnvTickResult) (s : State) : (storeEnv x s).params = s.params := rfl
@[simp] theorem storeEnv_pending (x : EnvTickResult) (s : State) : (storeEnv x s).pending = s.pending := rfl
@[simp] theorem storeEnv_readLog (x : EnvTickResult) (s : State) : (storeEnv x s).readLog = s.readLog := rfl

/-! ## storeNoise -/

@[simp] theorem storeNoise_cmd (x : NoiseSeed) (fb fa : Bool) (s : State) : (storeNoise x fb fa s).cmd = s.cmd := rfl
@[simp] theorem storeNoise_status (x : NoiseSeed) (fb fa : Bool) (s : State) :
    (storeNoise x fb fa s).status = s.status := rfl
@[simp] theorem storeNoise_errCmd (x : NoiseSeed) (fb fa : Bool) (s : State) :
    (storeNoise x fb fa s).errCmd = s.errCmd := rfl
@[simp] theorem storeNoise_errAddr (x : NoiseSeed) (fb fa : Bool) (s : State) :
    (storeNoise x fb fa s).errAddr = s.errAddr := rfl
@[simp] theorem storeNoise_arg (x : NoiseSeed) (fb fa : Bool) (s : State) : (storeNoise x fb fa s).arg = s.arg := rfl
@[simp] theorem storeNoise_res (x : NoiseSeed) (fb fa : Bool) (s : State) :
    (storeNoise x fb fa s).res = { r0 := x.nz.cur0, r1 := x.nz.cur1, r2 := tickFlags x.nz.scale fb fa (pulseOf s.arg.r0 x.nz), r3 := x.seed } := rfl
@[simp] theorem storeNoise_cfg (x : NoiseSeed) (fb fa : Bool) (s : State) :
    (storeNoise x fb fa s).cfg = { s.cfg with nzSeed := x.seed } := rfl
@[simp] theorem storeNoise_sm0 (x : NoiseSeed) (fb fa : Bool) (s : State) : (storeNoise x fb fa s).sm0 = s.sm0 := rfl
@[simp] theorem storeNoise_sm1 (x : NoiseSeed) (fb fa : Bool) (s : State) : (storeNoise x fb fa s).sm1 = s.sm1 := rfl
@[simp] theorem storeNoise_sl (x : NoiseSeed) (fb fa : Bool) (s : State) : (storeNoise x fb fa s).sl = s.sl := rfl
@[simp] theorem storeNoise_env (x : NoiseSeed) (fb fa : Bool) (s : State) : (storeNoise x fb fa s).env = s.env := rfl
@[simp] theorem storeNoise_nz (x : NoiseSeed) (fb fa : Bool) (s : State) :
    (storeNoise x fb fa s).nz = disarm s.arg.r0 x.nz := rfl
@[simp] theorem storeNoise_params (x : NoiseSeed) (fb fa : Bool) (s : State) :
    (storeNoise x fb fa s).params = s.params := rfl
@[simp] theorem storeNoise_pending (x : NoiseSeed) (fb fa : Bool) (s : State) :
    (storeNoise x fb fa s).pending = s.pending := rfl
@[simp] theorem storeNoise_readLog (x : NoiseSeed) (fb fa : Bool) (s : State) :
    (storeNoise x fb fa s).readLog = s.readLog := rfl

/-! ## setSmInstance -/

@[simp] theorem setSmInstance_cmd (sel : Sel) (m : Smoother) (s : State) :
    (setSmInstance sel m s).cmd = s.cmd := by unfold setSmInstance; split <;> rfl
@[simp] theorem setSmInstance_status (sel : Sel) (m : Smoother) (s : State) :
    (setSmInstance sel m s).status = s.status := by unfold setSmInstance; split <;> rfl
@[simp] theorem setSmInstance_errCmd (sel : Sel) (m : Smoother) (s : State) :
    (setSmInstance sel m s).errCmd = s.errCmd := by unfold setSmInstance; split <;> rfl
@[simp] theorem setSmInstance_errAddr (sel : Sel) (m : Smoother) (s : State) :
    (setSmInstance sel m s).errAddr = s.errAddr := by unfold setSmInstance; split <;> rfl
@[simp] theorem setSmInstance_arg (sel : Sel) (m : Smoother) (s : State) :
    (setSmInstance sel m s).arg = s.arg := by unfold setSmInstance; split <;> rfl
@[simp] theorem setSmInstance_res (sel : Sel) (m : Smoother) (s : State) :
    (setSmInstance sel m s).res = s.res := by unfold setSmInstance; split <;> rfl
@[simp] theorem setSmInstance_cfg (sel : Sel) (m : Smoother) (s : State) :
    (setSmInstance sel m s).cfg = s.cfg := by unfold setSmInstance; split <;> rfl
@[simp] theorem setSmInstance_sm0 (sel : Sel) (m : Smoother) (s : State) :
    (setSmInstance sel m s).sm0 = if sel = 0 then m else s.sm0 := by unfold setSmInstance; split <;> rfl
@[simp] theorem setSmInstance_sm1 (sel : Sel) (m : Smoother) (s : State) :
    (setSmInstance sel m s).sm1 = if sel = 0 then s.sm1 else m := by unfold setSmInstance; split <;> rfl
@[simp] theorem setSmInstance_sl (sel : Sel) (m : Smoother) (s : State) :
    (setSmInstance sel m s).sl = s.sl := by unfold setSmInstance; split <;> rfl
@[simp] theorem setSmInstance_env (sel : Sel) (m : Smoother) (s : State) :
    (setSmInstance sel m s).env = s.env := by unfold setSmInstance; split <;> rfl
@[simp] theorem setSmInstance_nz (sel : Sel) (m : Smoother) (s : State) :
    (setSmInstance sel m s).nz = s.nz := by unfold setSmInstance; split <;> rfl
@[simp] theorem setSmInstance_params (sel : Sel) (m : Smoother) (s : State) :
    (setSmInstance sel m s).params = s.params := by unfold setSmInstance; split <;> rfl
@[simp] theorem setSmInstance_pending (sel : Sel) (m : Smoother) (s : State) :
    (setSmInstance sel m s).pending = s.pending := by unfold setSmInstance; split <;> rfl
@[simp] theorem setSmInstance_readLog (sel : Sel) (m : Smoother) (s : State) :
    (setSmInstance sel m s).readLog = s.readLog := by unfold setSmInstance; split <;> rfl

end Sys2Proof.Laws
end

