-- ==== Sys2Proof/Laws/Ops.lean ====
section
/-! SUPPORT. One lemma per shared operation that says everything it can do; proofs cite these instead of unfolding. -/

namespace Sys2Proof.Laws

open Sys2Proof.Machine

/-! ## STATUS -/

@[simp] theorem statusSet_illegalCmd (x : Word) : statusSet .illegalCmd x = x ||| 1 := by
  simp [statusSet, statusBit, errorCode]

@[simp] theorem statusSet_badAccess (x : Word) : statusSet .badAccess x = x ||| 2 := by
  simp [statusSet, statusBit, errorCode]

/-! ## Running a command term -/

theorem runIfLegal_legal {i : Instr} (h : (i.selBits).toNat ≤ i.op.selMax) (run : State → State) (s : State) :
    runIfLegal i run s = .next (run s) := by simp [runIfLegal, h]

theorem runIfLegal_illegal {i : Instr} (h : i.op.selMax < (i.selBits).toNat) (run : State → State) (s : State) :
    runIfLegal i run s = .next (raiseIllegalCommand (encode i) s) := by
  simp [runIfLegal, Nat.not_le.mpr h]

/-- A well-formed term's SEL is within its row's SELMAX. -/
theorem wf_sel_le {i : Instr} (h : i.wf = true) : (i.selBits).toNat ≤ i.op.selMax := by
  cases i <;> simp_all [Instr.wf, Instr.selBits, Instr.op, Op.selMax]

theorem not_wf_sel_lt {i : Instr} (h : i.wf = false) : i.op.selMax < (i.selBits).toNat := by
  cases i <;> simp_all [Instr.wf, Instr.selBits, Instr.op, Op.selMax]

theorem exec_smProcess_legal {sel : Sel} (h : sel.toNat ≤ 1) (s : State) :
    exec (.smProcess sel) s =
      .next (storeSmoother sel (smootherProcess (smInstance sel s) (sArg0 s) (smAlpha sel s) (smDeadband sel s)) s) := by
  simp only [exec, execSmProcess]
  exact runIfLegal_legal (i := .smProcess sel) h _ _

theorem exec_smReset_legal {sel : Sel} (h : sel.toNat ≤ 1) (s : State) :
    exec (.smReset sel) s =
      .next (writeResult (sArg0 s) (setSmInstance sel (smootherReset (sArg0 s)) s)) := by
  simp only [exec, execSmReset]
  exact runIfLegal_legal (i := .smReset sel) h _ _

theorem exec_nzQuant_legal {sel : Sel} (h : sel.toNat ≤ 5) (s : State) :
    exec (.nzQuant sel) s = .next (writeResult (quantize (sArg0 s) (scaleOfIndex sel.toNat)) s) := by
  simp only [exec, execNzQuant]
  exact runIfLegal_legal (i := .nzQuant sel) h _ _

theorem exec_smProcess_illegal {sel : Sel} (h : 1 < sel.toNat) (s : State) :
    exec (.smProcess sel) s = .next (raiseIllegalCommand (encode (.smProcess sel)) s) := by
  simp only [exec, execSmProcess]
  exact runIfLegal_illegal (i := .smProcess sel) h _ _

theorem exec_smReset_illegal {sel : Sel} (h : 1 < sel.toNat) (s : State) :
    exec (.smReset sel) s = .next (raiseIllegalCommand (encode (.smReset sel)) s) := by
  simp only [exec, execSmReset]
  exact runIfLegal_illegal (i := .smReset sel) h _ _

theorem exec_nzQuant_illegal {sel : Sel} (h : 5 < sel.toNat) (s : State) :
    exec (.nzQuant sel) s = .next (raiseIllegalCommand (encode (.nzQuant sel)) s) := by
  simp only [exec, execNzQuant]
  exact runIfLegal_illegal (i := .nzQuant sel) h _ _

/-- A legal smoother select is 0 or 1 (30_encoding.md R113). -/
theorem sel_zero_or_one {sel : Sel} (h : sel.toNat ≤ 1) : sel = 0 ∨ sel = 1 := by
  revert sel; decide

/-! ## The smoother -/

/-- Everything one call of a smoother can do (41_smoother.md R170). -/
theorem smootherProcess_cases (m : Smoother) (target alpha deadband : Int) :
    (m.init = false ∧ smootherProcess m target alpha deadband = { init := true, out := u32 target }) ∨
    (m.init = true ∧ absInt (target - s32 m.out) ≤ deadband ∧ smootherProcess m target alpha deadband = m) ∨
    (m.init = true ∧ deadband < absInt (target - s32 m.out) ∧
      smootherProcess m target alpha deadband =
        { init := true, out := u32 (s32 m.out + smootherStep (target - s32 m.out) alpha) }) := by
  unfold smootherProcess
  cases hm : m.init with
  | false => simp
  | true =>
    by_cases h : absInt (target - s32 m.out) ≤ deadband
    · simp [h]
    · simp [h, Int.not_le.mp h]

/-- A smoother's step with alpha in 0..32768 goes at least 1 toward the target and not past it (41_smoother.md R171,
R172). -/
theorem smootherStep_toward {d alpha : Int} (h0 : 0 ≤ alpha) (h1 : alpha ≤ 32768) :
    (0 < d → 1 ≤ smootherStep d alpha ∧ smootherStep d alpha ≤ d) ∧
    (d < 0 → d ≤ smootherStep d alpha ∧ smootherStep d alpha ≤ -1) := by
  have hm := mulQ15_toward_zero (v := d) h0 h1
  unfold smootherStep
  constructor <;> intro hd
  · have := hm.1 hd.le
    split
    · rw [sgn_of_pos hd]; omega
    · omega
  · have := hm.2 hd.le
    split
    · rw [sgn_of_neg hd]; omega
    · omega

/-! ## The slew limiter -/

theorem slewCoeff_range (cfg : CfgRegs) {el rate : Int} (hel : 0 ≤ el) (hr : 0 ≤ rate) (hr1 : rate ≤ 32768) :
    0 ≤ slewCoeff cfg el rate ∧ slewCoeff cfg el rate ≤ 32768 := by
  have hd : 0 ≤ slewDenom cfg rate := (mulQ15_range (unsigned_nonneg cfg.slTmaxUs) hr hr1).1
  unfold slewCoeff
  split
  · omega
  · have : 0 ≤ floorDiv (el * 32768) (slewDenom cfg rate) := Int.ediv_nonneg (by omega) hd
    omega

/-- A slew step goes at least 1 toward the target and not past it (42_slew.md R198). -/
theorem slewStep_toward (cfg : CfgRegs) {d coeff shapeQ : Int} (hc : 0 ≤ coeff) (hc1 : coeff ≤ 32768) (hs : 0 ≤ shapeQ)
    (hs1 : shapeQ ≤ 32768) :
    (0 < d → 1 ≤ slewStep cfg d coeff shapeQ ∧ slewStep cfg d coeff shapeQ ≤ d) ∧
    (d < 0 → d ≤ slewStep cfg d coeff shapeQ ∧ slewStep cfg d coeff shapeQ ≤ -1) := by
  have hl := (mulQ15_range (unsigned_nonneg cfg.slFullrangeMv) hc hc1).1
  have he := mulQ15_toward_zero (v := d) hc hc1
  unfold slewStep
  constructor <;> intro hd
  · have hb : 0 ≤ slewBlend cfg d coeff shapeQ ∧ slewBlend cfg d coeff shapeQ ≤ d := by
      have := he.1 hd.le
      apply blendQ15_range _ _ this.1 this.2 hs hs1
      · simp only [slewLinStep, sgn_of_pos hd, cfgVal, absInt_of_nonneg hd.le]; omega
      · simp only [slewLinStep, sgn_of_pos hd, cfgVal, absInt_of_nonneg hd.le]; omega
    split
    · rw [sgn_of_pos hd]; omega
    · omega
  · have hb : d ≤ slewBlend cfg d coeff shapeQ ∧ slewBlend cfg d coeff shapeQ ≤ 0 := by
      have := he.2 hd.le
      apply blendQ15_range_neg _ _ this.2 this.1 hs hs1
      · simp only [slewLinStep, sgn_of_neg hd, cfgVal, absInt_of_nonpos hd.le]; omega
      · simp only [slewLinStep, sgn_of_neg hd, cfgVal, absInt_of_nonpos hd.le]; omega
    split
    · rw [sgn_of_neg hd]; omega
    · omega

theorem slewTarget_range (arg : Word) : -5000 ≤ slewTarget arg ∧ slewTarget arg ≤ 5000 :=
  clamp_range (by omega) _

/-- Everything one channel's turn can do: it stays on its target, or moves by a step of `slewStep` (42_slew.md R195). -/
theorem slewChannel_cases (cfg : CfgRegs) (el riseQ fallQ shapeQ : Int) (arg cur : Word) :
    (slewTarget arg = s32 cur ∧ slewChannel cfg el riseQ fallQ shapeQ arg cur = cur) ∨
    (slewTarget arg ≠ s32 cur ∧
      slewChannel cfg el riseQ fallQ shapeQ arg cur =
        u32 (s32 cur + slewStep cfg (slewTarget arg - s32 cur)
          (slewCoeff cfg el (slewRate (slewTarget arg - s32 cur) riseQ fallQ)) shapeQ)) := by
  unfold slewChannel
  split
  · exact .inl ⟨by omega, rfl⟩
  · exact .inr ⟨by omega, rfl⟩

/-! ## The envelope -/

/-- Everything one tick of the stage machine can do: the rows of 43_envelope.md R221, from the top. -/
theorem envTickOf_cases (trig cvmod : Bool) (s : State) :
    (trig = true ∧ envTickOf trig cvmod s = envTrigger cvmod s) ∨
    (trig = false ∧ s.env.stage = .attack ∧ envTickOf trig cvmod s = envAttack s) ∨
    (trig = false ∧ s.env.stage = .decay ∧ envTickOf trig cvmod s = envDecay s) ∨
    (trig = false ∧ s.env.stage = .idle ∧ envTickOf trig cvmod s = envIdle s) := by
  unfold envTickOf
  cases trig <;> simp
  cases s.env.stage <;> simp

theorem stageOver_iff (now : Word) (e : Env) : stageOver now e = true ↔ unsigned e.dur ≤ elapsed now e.start := by
  simp [stageOver]

/-- Inside a stage the progress is a Q15 value below 32768 (43_envelope.md R224). -/
theorem envProgress_range {now : Word} {e : Env} (h : stageOver now e = false) :
    0 ≤ envProgress now e ∧ envProgress now e ≤ 32767 := by
  have h0 := elapsed_nonneg now e.start
  simp only [stageOver, decide_eq_false_iff_not, Int.not_le] at h
  unfold envProgress floorDiv
  refine ⟨Int.ediv_nonneg (by omega) (by omega), ?_⟩
  have : elapsed now e.start * 32768 / unsigned e.dur < 32768 := Int.ediv_lt_of_lt_mul (by omega) (by omega)
  omega

/-! ## The noise generator -/

theorem tickA_cases (fires : Bool) (cfg : CfgRegs) (now : Word) (w : Int) (x : NoiseSeed) :
    (fires = false ∧ tickA fires cfg now w x = x) ∨ (fires = true ∧ tickA fires cfg now w x = resampleA cfg now w x) := by
  cases fires <;> simp [tickA]

theorem tickB_cases (fires : Bool) (now : Word) (w : Int) (x : NoiseSeed) :
    (fires = false ∧ tickB fires now w x = x) ∨ (fires = true ∧ tickB fires now w x = resampleB now w x) := by
  cases fires <;> simp [tickB]

theorem quantize_range (v : Int) (sc : Scale) : 0 ≤ quantize v sc ∧ quantize v sc ≤ 10000 := by
  unfold quantize
  split <;> exact clamp_range (by omega) _

theorem scaleIndex_scaleOfIndex {n : Nat} (h : n ≤ 5) : scaleIndex (scaleOfIndex n) = n := by
  interval_cases n <;> rfl

/-- RES2 of NZ.TICK as a number: its fields do not overlap (30_encoding.md R116). -/
theorem tickFlags_eq (sc : Scale) (firedB firedA pulse : Bool) :
    tickFlags sc firedB firedA pulse =
      BitVec.ofNat 32 (scaleIndex sc * 256 + firedB.toNat * 4 + firedA.toNat * 2 + pulse.toNat) := by
  cases sc <;> cases firedB <;> cases firedA <;> cases pulse <;> decide

/-! ## Accesses -/

theorem readTarget_some {off : Offset} {n : Size} {r : Reg} :
    readTarget off n = some r ↔ alignedWord off n = true ∧ regAt off = some r := by
  unfold readTarget; split <;> simp_all

theorem regOffset_aligned (r : Reg) : (regOffset r).toNat % 4 = 0 := by
  cases r with
  | cfg n => cases n <;> rfl
  | readback b => cases b <;> rfl
  | _ => rfl

/-- Every register stands at its own offset (20_memory.md R81). -/
theorem regAt_regOffset (r : Reg) : regAt (regOffset r) = some r := by
  cases r with
  | cfg n => cases n <;> rfl
  | readback b => cases b <;> rfl
  | _ => rfl

theorem readTarget_regOffset (r : Reg) : readTarget (regOffset r) .word = some r := by
  rw [readTarget_some]
  exact ⟨by simp [alignedWord, sizeBytes, regOffset_aligned], regAt_regOffset r⟩

theorem writeTarget_regOffset {r : Reg} (h : readOnly r = false) : writeTarget (regOffset r) .word = some r := by
  simp [writeTarget, readTarget_regOffset, h]

/-- Everything a command word written to CMD can do: raise IllegalCommand, or run its command (30_encoding.md R110). -/
theorem execute_cases (w : Word) (s : State) :
    ((∃ e, decode w = .error e) ∧ execute w s = .next (raiseIllegalCommand w s)) ∨
    (∃ i, decode w = .ok i ∧ execute w s = exec i s) := by
  unfold execute
  cases decode w with
  | error e => exact .inl ⟨⟨e, rfl⟩, rfl⟩
  | ok i => exact .inr ⟨i, rfl, rfl⟩

theorem performNext_cases (s : State) :
    (s.pending = [] ∧ performNext s = .next s) ∨
    (∃ a rest, s.pending = a :: rest ∧ performNext s = performAccess a (setPending rest s)) := by
  unfold performNext
  cases h : s.pending with
  | nil => exact .inl ⟨rfl, rfl⟩
  | cons a rest => exact .inr ⟨a, rest, rfl, rfl⟩

/-- A step with an access pending performs it. -/
theorem step_cons {s : State} {a : Access} {rest : List Access} (h : s.pending = a :: rest) :
    step s = performAccess a (setPending rest s) := by
  simp [step, performNext, h]

/-- A step with a legal write pending writes its register. -/
theorem step_write {s : State} {r : Reg} {v : Word} {rest : List Access} (hr : readOnly r = false)
    (h : s.pending = .write (regOffset r) .word v :: rest) : step s = writeReg r v (setPending rest s) := by
  simp [step_cons h, performAccess, memWrite, writeTarget_regOffset hr]

end Sys2Proof.Laws
end

