-- ==== Sys2Proof/Laws/PerInstr.lean ====
section
/-! SUPPORT. Statements made for every command, one lemma per constructor. -/

namespace Sys2Proof.Laws.WordFields

/-- Every field of a command's word reads as the command says, and every reserved bit is 0 (30_encoding.md R111, R115). -/
def Statement (i : Instr) : Prop :=
  opField (encode i) = i.op.code ∧ selField (encode i) = i.selBits ∧ flagsField (encode i) = i.flagBits ∧
    reservedBit11 (encode i) = false ∧ reservedHigh (encode i) = 0

theorem nop : Statement .nop := by unfold Statement; decide

theorem clamp : Statement .clamp := by unfold Statement; decide

theorem mulq15 : Statement .mulq15 := by unfold Statement; decide

theorem blendq15 : Statement .blendq15 := by unfold Statement; decide

theorem u8toq15 : Statement .u8toq15 := by unfold Statement; decide

theorem smProcess (sel : Sel) : Statement (.smProcess sel) := by unfold Statement; revert sel; decide

theorem smReset (sel : Sel) : Statement (.smReset sel) := by unfold Statement; revert sel; decide

theorem slStep (toggleLink : Bool) : Statement (.slStep toggleLink) := by unfold Statement; revert toggleLink; decide

theorem envTick (trig cvmod : Bool) : Statement (.envTick trig cvmod) := by unfold Statement; revert trig cvmod; decide

theorem nzTick (clk hold : Bool) : Statement (.nzTick clk hold) := by unfold Statement; revert clk hold; decide

theorem nzDraw : Statement .nzDraw := by unfold Statement; decide

theorem nzQuant (sel : Sel) : Statement (.nzQuant sel) := by unfold Statement; revert sel; decide

end Sys2Proof.Laws.WordFields
end

