-- ==== Sys2Proof/Tests/Slice0.lean ====
section
/-! SUPPORT. Tests of one step each, with results from spec/95_test_vectors.md or computed by hand from the rule named, and
a witness for the hypotheses of each statement that has some. -/

namespace Sys2Proof.Tests

open Sys2Proof.Machine Sys2Proof.Safety

/-! ## Well-formedness: one ill-formed term for each check -/

theorem test_wf_smProcess : (Instr.smProcess 1).wf = true ∧ (Instr.smProcess 2).wf = false := by decide

theorem test_wf_smReset : (Instr.smReset 1).wf = true ∧ (Instr.smReset 2).wf = false := by decide

theorem test_wf_nzQuant : (Instr.nzQuant 5).wf = true ∧ (Instr.nzQuant 6).wf = false := by decide

/-! ## Decoding: words written out from 30_encoding.md R111 to R114, `0b FLAGS . reserved . SEL . OP` in bits 15:0 -/

theorem test_decode_nop : decode 0b0000_0_000_00000000 = .ok .nop := by decide

theorem test_decode_clamp : decode 0b0000_0_000_00000001 = .ok .clamp := by decide

theorem test_decode_mulq15 : decode 0b0000_0_000_00000010 = .ok .mulq15 := by decide

theorem test_decode_blendq15 : decode 0b0000_0_000_00000011 = .ok .blendq15 := by decide

theorem test_decode_u8toq15 : decode 0b0000_0_000_00000100 = .ok .u8toq15 := by decide

theorem test_decode_smProcess : decode 0b0000_0_001_00010000 = .ok (.smProcess 1) := by decide

theorem test_decode_smReset : decode 0b0000_0_001_00010001 = .ok (.smReset 1) := by decide

theorem test_decode_slStep : decode 0b0001_0_000_00100000 = .ok (.slStep true) := by decide

theorem test_decode_envTick : decode 0b0001_0_000_00110000 = .ok (.envTick true false) ∧
    decode 0b0010_0_000_00110000 = .ok (.envTick false true) := by decide

theorem test_decode_nzTick : decode 0b0001_0_000_01000000 = .ok (.nzTick true false) ∧
    decode 0b0010_0_000_01000000 = .ok (.nzTick false true) := by decide

theorem test_decode_nzDraw : decode 0b0000_0_000_01000001 = .ok .nzDraw := by decide

theorem test_decode_nzQuant : decode 0b0000_0_101_01000010 = .ok (.nzQuant 5) := by decide

/-- The illegal words of 95_test_vectors.md 2.1, with the reason of each. -/
theorem test_decode_illegal :
    decode 0x00000100 = .error .selOutOfRange ∧ decode 0x00001000 = .error .flagNotAllowed ∧
    decode 0x00000005 = .error .reservedOp ∧ decode 0x0000000F = .error .reservedOp ∧
    decode 0x00000101 = .error .selOutOfRange ∧ decode 0x00000210 = .error .selOutOfRange ∧
    decode 0x00000810 = .error .reservedBits ∧ decode 0x00001010 = .error .flagNotAllowed ∧
    decode 0x00000211 = .error .selOutOfRange ∧ decode 0x00000112 = .error .reservedOp ∧
    decode 0x00002020 = .error .flagNotAllowed ∧ decode 0x00004030 = .error .flagNotAllowed ∧
    decode 0x00004040 = .error .flagNotAllowed ∧ decode 0x00001041 = .error .flagNotAllowed ∧
    decode 0x00000642 = .error .selOutOfRange ∧ decode 0x00010001 = .error .reservedBits ∧
    decode 0x80000000 = .error .reservedBits := by decide

/-- Bytes lie least significant first (20_memory.md R83), and one command is four of them. -/
theorem test_decode_bytes : decodeBytes [0x42, 0x05, 0x00, 0x00] = .ok (.nzQuant 5) ∧
    decodeBytes [0x42, 0x05, 0x00] = .error .notFourBytes := by decide

theorem test_decodeTableWord : decodeTableWord 32 0x00001020 = some (.slStep true) ∧
    decodeTableWord 32 0x00000642 = none := by decide

/-! ## One step of each command -/

/-- A machine with the given operands, as signed numbers. -/
def withArgs (a0 a1 a2 a3 : Int) (s : State) : State := { s with arg := ⟨u32 a0, u32 a1, u32 a2, u32 a3⟩ }

/-- The results of an outcome, as signed numbers; none where it is not a next state. -/
def resOf : Result → Option (Int × Int × Int × Int)
  | .next s => some (s32 s.res.r0, s32 s.res.r1, s32 s.res.r2, s32 s.res.r3)
  | .fault _ => none
  | .refused _ => none

/-- One view of the next state; none where the outcome is not one. -/
def after {α : Type} (view : State → α) : Result → Option α
  | .next s => some (view s)
  | .fault _ => none
  | .refused _ => none

/-- NOP keeps the results (30_encoding.md R121). -/
theorem test_nop :
    resOf (exec .nop { State.reset with res := ⟨1, 2, 3, 4⟩ }) = some (1, 2, 3, 4) := by decide

/-- 95_test_vectors.md 2.3: lo > hi. -/
theorem test_clamp_reversed : resOf (exec .clamp (withArgs 15 10 0 0 State.reset)) = some (0, 0, 0, 0) := by decide

theorem test_clamp_below : resOf (exec .clamp (withArgs (-5) 10 0 0 State.reset)) = some (10, 0, 0, 0) := by decide

/-- 95_test_vectors.md 2.3: truncation toward zero. -/
theorem test_mulq15_truncates :
    resOf (exec .mulq15 (withArgs (-3) 16384 0 0 State.reset)) = some (-1, 0, 0, 0) := by decide

/-- 95_test_vectors.md 2.3: 0xFFFE0000. -/
theorem test_mulq15_wraps :
    resOf (exec .mulq15 (withArgs 0x7FFFFFFF 0x7FFFFFFF 0 0 State.reset)) = some (-131072, 0, 0, 0) := by decide

/-- 95_test_vectors.md 2.3: t is not clamped. -/
theorem test_blendq15_extrapolates :
    resOf (exec .blendq15 (withArgs 1 0 (-2147483648) 0 State.reset)) = some (65537, 0, 0, 0) := by decide

theorem test_blendq15_half :
    resOf (exec .blendq15 (withArgs 1000 3000 16384 0 State.reset)) = some (2000, 0, 0, 0) := by decide

/-- 95_test_vectors.md 2.3. -/
theorem test_u8toq15_rounds : resOf (exec .u8toq15 (withArgs 1 0 0 0 State.reset)) = some (129, 0, 0, 0) := by decide

theorem test_u8toq15_saturates : resOf (exec .u8toq15 (withArgs 256 0 0 0 State.reset)) = some (32768, 0, 0, 0) := by decide

/-- 95_test_vectors.md 2.4: 1044 to 1046 forces a step from 1043. -/
theorem test_smProcess_forced_step :
    resOf (exec (.smProcess 0) (withArgs 1046 0 0 0 { State.reset with sm0 := ⟨true, 1043⟩ })) = some (1044, 0, 0, 0) := by
  decide

/-- 41_smoother.md R170: a first call takes the target; SM1's does not touch SM0. -/
theorem test_smProcess_first_call :
    after (fun s => (s.sm1, s.sm0)) (exec (.smProcess 1) (withArgs (-5) 0 0 0 State.reset)) =
      some (⟨true, u32 (-5)⟩, ⟨false, 0⟩) := by decide

/-- 41_smoother.md R176. -/
theorem test_smReset :
    after (fun s => (s.sm1, s32 s.res.r0)) (exec (.smReset 1) (withArgs 500 0 0 0 State.reset)) =
      some (⟨true, 500⟩, 500) := by decide

/-- 95_test_vectors.md 2.5, L4. -/
theorem test_slStep_exponential :
    resOf (exec (.slStep false) (withArgs 3000 (-3000) 100000 0x00FFFFFF State.reset)) =
      some (5299, 4701, 299, -299) := by decide

/-- 95_test_vectors.md 2.5, L8: linked, fall uses the rise pot. -/
theorem test_slStep_linked :
    resOf (exec (.slStep true) (withArgs 3000 (-3000) 100000 0x00FF00FF State.reset)) =
      some (5299, 4701, 299, -299) := by decide

/-- An envelope in a stage of 80024 µs that began at 1000. -/
def inStage (stage : Stage) : State := { State.reset with env := ⟨stage, 0, 1000, 80024⟩ }

/-- 95_test_vectors.md 2.6, E1, shape 128 at 41012. -/
theorem test_envTick_attack :
    resOf (exec (.envTick false false) (withArgs 41012 0x00804040 0 0 (inStage .attack))) =
      some (3745, 3745, 12272, 1) := by decide

/-- 95_test_vectors.md 2.6, E1: the tick that completes Decay. -/
theorem test_envTick_eoc :
    resOf (exec (.envTick false false) (withArgs 81024 0x00004040 0 0 (inStage .decay))) = some (0, 0, 0, 0x100) := by
  decide

/-- 95_test_vectors.md 2.7, N5, t1. -/
theorem test_nzTick_both :
    resOf (exec (.nzTick false false) (withArgs 1000 0x00FF0000 0 0 State.reset)) = some (80, 3753, 7, 67634689) := by
  decide

/-- 95_test_vectors.md 2.7, N4: pot 128 selects the minor scale. -/
theorem test_nzTick_hold :
    resOf (exec (.nzTick true true) (withArgs 1000 0x00800000 0 0 State.reset)) = some (5000, 5000, 0x300, 1) := by decide

/-- 95_test_vectors.md 2.7, N1. -/
theorem test_nzDraw : after (fun s => (s.res.r0, s.cfg.nzSeed)) (exec .nzDraw State.reset) = some (270369, 270369) := by
  decide

/-- 95_test_vectors.md 2.7, N3: semitone 3 of the major scale. -/
theorem test_nzQuant_tie : resOf (exec (.nzQuant 2) (withArgs 250 0 0 0 State.reset)) = some (167, 0, 0, 0) := by decide

/-- 95_test_vectors.md 2.7, N3 edges: the wrap to the next octave's tonic. -/
theorem test_nzQuant_wrap : resOf (exec (.nzQuant 4) (withArgs 9917 0 0 0 State.reset)) = some (10000, 0, 0, 0) := by decide

/-! ## One step of the machine: accesses -/

/-- The reset machine with one access pending. -/
def pendingAccess (a : Access) : State := { State.reset with pending := [a] }

/-- withFetchWord's next step runs the command. -/
theorem test_withFetchWord :
    after (fun s => (s.cmd, s.res.r0, s.pending)) (step (State.reset.withFetchWord 32 0x41)) =
      some (0x41, 270369, []) := by decide

/-- 95_test_vectors.md 2.2: a write of two bytes to CMD. -/
theorem test_step_badAccess :
    after (fun s => (s.status, s.errAddr, s.cmd)) (step (pendingAccess (.write 0x00 .half 0x41))) = some (2, 0, 0) := by
  decide

/-- 95_test_vectors.md 2.2: `wr NZ_EXT_THRESH, 70000`. -/
theorem test_step_warl :
    after (fun s => s.cfg.nzExtThresh) (step (pendingAccess (.write 0x88 .word 70000))) = some 65535 := by decide

/-- 10_state.md R63: NZ_CUR0 reads 5000 after reset. -/
theorem test_step_read : after (fun s => s.readLog) (step (pendingAccess (.read 0xE0 .word))) = some [5000] := by decide

/-- 30_encoding.md R119. -/
theorem test_commandText : commandText (.envTick true true) = "ENV.TICK TRIG|CVMOD" ∧
    commandText (.nzQuant 2) = "NZ.QUANT.2" := by decide

/-- 30_encoding.md R120, `draw`. -/
theorem test_expand : programAccesses (expand .draw) = [.write 0x00 .word 0x41, .read 0x20 .word] := by decide

/-! ## Witnesses: the hypotheses of each statement hold together somewhere -/

theorem witness_DecodeInvertsEncode : (Instr.nzQuant 5).wf = true := by decide

theorem witness_EncodeInvertsDecode : decode 0x00003040 = .ok (.nzTick true true) := by decide

theorem witness_LegalWordsMatchOneRow :
    Op.nzQuant.Matches 0x00000542 ∧ Op.smProcess.Matches 0x00000110 ∧ ¬ Op.nzQuant.Matches 0x00000642 := by decide

theorem witness_NopChangesNothing :
    (0x00000000 : Word).extractLsb' 0 8 = 0 ∧ (0x00010000 : Word).extractLsb' 0 8 = 0 := by decide

theorem witness_StepRunsTheDecodedCommand :
    (pendingAccess (.write 0x00 .word 0x41)).pending = .write 0x00 .word 0x41 :: [] ∧ decode 0x41 = .ok .nzDraw := by decide

theorem witness_IllegalWordIsRecorded :
    (pendingAccess (.write 0x00 .word 0x642)).pending = .write 0x00 .word 0x642 :: [] ∧
      decode 0x642 = .error .selOutOfRange := by decide

theorem witness_IdleBlockHoldsItsState : State.reset.pending = [] := by decide

theorem witness_LegalReadReturnsTheRegister :
    (0x00, 0) ∈ windowTable State.reset ∧ (0xE0, 5000) ∈ windowTable State.reset ∧ (0xF8, 0) ∈ windowTable State.reset := by
  decide

/-- An access of a legal read's shape, by the ranges of 20_memory.md R81. -/
abbrev mapped (off : Offset) : Prop :=
  off.toNat % 4 = 0 ∧
    (off.toNat ≤ 0x2C ∨ (0x40 ≤ off.toNat ∧ off.toNat ≤ 0x60) ∨ (0x70 ≤ off.toNat ∧ off.toNat ≤ 0x78) ∨
      (0x80 ≤ off.toNat ∧ off.toNat ≤ 0x90) ∨ (0xA0 ≤ off.toNat ∧ off.toNat ≤ 0xF8))

/-- Read clause of IllegalAccessIsRecorded: the ends of every unmapped range, a misaligned offset; and the ends of the mapped
ranges are not in it. -/
theorem witness_IllegalAccessIsRecorded_read :
    (∀ off ∈ ([0x30, 0x3C, 0x64, 0x6C, 0x7C, 0x94, 0x9C, 0xFC, 0x02, 0xF9] : List Offset), ¬ mapped off) ∧
    (∀ off ∈ ([0x00, 0x2C, 0x40, 0x60, 0x70, 0x78, 0x80, 0x90, 0xA0, 0xF8] : List Offset), mapped off) := by decide

/-- Write clause of IllegalAccessIsRecorded: the ends of the read-only ranges and a narrow write to CMD raise BadAccess. -/
theorem witness_IllegalAccessIsRecorded_write :
    ∀ a ∈ ([.write 0x08 .word 1, .write 0x0C .word 1, .write 0x20 .word 1, .write 0x2C .word 1, .write 0xA0 .word 1,
        .write 0xF8 .word 1, .write 0x00 .byte 1] : List Access),
      after (fun s => s.status) (step (pendingAccess a)) = some 2 := by decide

theorem witness_U8toq15RoundsToNearest :
    s32 (withArgs 0 0 0 0 State.reset).arg.r0 = 0 ∧ s32 (withArgs 255 0 0 0 State.reset).arg.r0 = 255 ∧
    s32 (withArgs 254 0 0 0 State.reset).arg.r0 = 254 := by decide

/-- SmootherCall's four clauses: first call, held at the deadband's edge, a step, a forced step. -/
theorem witness_SmProcessCallsTheSelectedSmoother :
    resOf (exec (.smProcess 0) (withArgs 7 0 0 0 State.reset)) = some (7, 0, 0, 0) ∧
    resOf (exec (.smProcess 0) (withArgs 102 0 0 0 { State.reset with sm0 := ⟨true, 100⟩ })) = some (100, 0, 0, 0) ∧
    resOf (exec (.smProcess 0) (withArgs 104 0 0 0 { State.reset with sm0 := ⟨true, 100⟩ })) = some (101, 0, 0, 0) ∧
    resOf (exec (.smProcess 0) (withArgs 103 0 0 0 { State.reset with sm0 := ⟨true, 100⟩ })) = some (101, 0, 0, 0) := by
  decide

theorem witness_SelOutOfRangeIsIllegal : 1 < (2 : Sel).toNat ∧ 5 < (6 : Sel).toNat := by decide

/-- The three clauses of a channel: on its target, a step, and a forced step (coefficient 0). -/
theorem witness_SlStepMovesBothChannels :
    resOf (exec (.slStep false) (withArgs 0 1000 50000 0x00FFFFFF State.reset)) = some (5000, 5049, 0, 49) ∧
    resOf (exec (.slStep false) (withArgs 3000 (-3000) 0 0x0000FFFF State.reset)) = some (5001, 4999, 1, -1) := by decide

/-- Each row of the stage table: the stage that follows, and the value. -/
theorem witness_EnvTickFollowsTheStageTable :
    after (fun s => (s.env.stage, s.env.dur)) (exec (.envTick true false) (withArgs 5 64 5000 0 (inStage .decay))) =
      some (.attack, 80024) ∧
    after (fun s => (s.env.stage, s.env.dur)) (exec (.envTick true true) (withArgs 5 64 5000 0 (inStage .idle))) =
      some (.attack, 40012) ∧
    after (fun s => s.env) (exec (.envTick false false) (withArgs 81024 0 0 0 (inStage .attack))) =
      some ⟨.decay, 32768, 81024, 1000⟩ ∧
    after (fun s => s.env) (exec (.envTick false false) (withArgs 81023 0 0 0 (inStage .attack))) =
      some ⟨.attack, 32767, 1000, 80024⟩ ∧
    after (fun s => s.env) (exec (.envTick false false) (withArgs 81024 0 0 0 (inStage .decay))) =
      some ⟨.idle, 0, 1000, 80024⟩ ∧
    after (fun s => s.env) (exec (.envTick false false) (withArgs 81023 0 0 0 (inStage .decay))) =
      some ⟨.decay, 1, 1000, 80024⟩ ∧
    after (fun s => s.env) (exec (.envTick false true) (withArgs 9 0 0 0 (inStage .idle))) =
      some ⟨.idle, 0, 1000, 80024⟩ := by decide

/-- Both clauses, at both ends of SEL. -/
theorem witness_NzQuantGivesTheNearestNote :
    (0 : Sel).toNat ≤ 5 ∧ (5 : Sel).toNat ≤ 5 ∧
    resOf (exec (.nzQuant 0) (withArgs 1234 0 0 0 State.reset)) = some (1234, 0, 0, 0) ∧
    resOf (exec (.nzQuant 5) (withArgs 10000 0 0 0 State.reset)) = some (10000, 0, 0, 0) := by decide

theorem witness_BlendStaysBetweenItsEnds :
    resOf (exec .blendq15 (withArgs 1000 3000 0 0 State.reset)) = some (1000, 0, 0, 0) ∧
    resOf (exec .blendq15 (withArgs 1000 3000 32768 0 State.reset)) = some (3000, 0, 0, 0) := by decide

/-- The pots at which potCurve first leaves 0 and at which it is 1: 95_test_vectors.md 2.3. -/
theorem witness_PotCurveRisesFromZeroToOne :
    potCurve 2 = 0 ∧ potCurve 8 = 1 ∧ potCurve 254 = 32382 ∧ potCurve 255 = 32768 := by decide

theorem witness_TimeArithmeticSurvivesWrap :
    ElapsedDuty 5 5 ∧ ElapsedDuty 5 (5 + 2 ^ 32 - 1) ∧ PulseDuty (2 ^ 31 + 4) 5 ∧ PulseDuty 5 (2 ^ 31 + 4) := by decide

/-- Alpha at both ends of its range. -/
theorem witness_SmootherNeverOvershoots :
    (Smoother.mk true 10).init = true ∧
    smootherProcess ⟨true, 10⟩ (s32 13) 0 0 = ⟨true, 11⟩ ∧ smootherProcess ⟨true, 10⟩ (s32 13) 32768 0 = ⟨true, 13⟩ := by
  decide

/-- A distance at the deadband is held, one beyond it is not (95_test_vectors.md 2.4). -/
theorem witness_SmootherIsHeldInsideTheDeadband :
    smootherProcess ⟨true, 10⟩ (s32 110) 32768 100 = ⟨true, 10⟩ ∧
    smootherProcess ⟨true, 10⟩ (s32 111) 32768 100 = ⟨true, 111⟩ := by decide

/-- Alpha 0 reaches 13 from 10 in three calls (95_test_vectors.md 2.4). -/
theorem witness_SmootherReachesTheDeadband :
    (0 : Int) < ((s32 13 - s32 10).natAbs : Int) ∧ ((s32 13 - s32 10).natAbs : Int) - 0 ≤ 3 ∧
    (fun x => smootherProcess x (s32 13) 0 0)^[3] ⟨true, 10⟩ = ⟨true, 13⟩ := by decide

theorem witness_SlewMovesTowardItsTarget :
    exec (.slStep false) (withArgs 3000 (-3000) 0 0 State.reset) =
      .next (storeSlew (slewNext false (withArgs 3000 (-3000) 0 0 State.reset)) (withArgs 3000 (-3000) 0 0 State.reset)) :=
  rfl

/-- Slew steps at one time and full pots, from reset with targets 3 and -2. -/
def slewRun : Nat → State
  | 0 => withArgs 3 (-2) 0 0x0000FFFF State.reset
  | k + 1 =>
    let s := { slewRun k with arg := { (slewRun k).arg with r2 := 0, r3 := 0x0000FFFF } }
    storeSlew (slewNext false s) s

/-- The run of SlewReachesItsTarget's hypothesis exists, and its bound is met with equality: 3 steps of 1 mV. -/
theorem witness_SlewReachesItsTarget :
    ∀ k, ∃ (now pots : Word) (toggleLink : Bool),
      exec (.slStep toggleLink) { slewRun k with arg := { (slewRun k).arg with r2 := now, r3 := pots } } =
        .next (slewRun (k + 1)) :=
  fun _ => ⟨0, 0x0000FFFF, false, rfl⟩

theorem test_slewRun : (s32 (slewRun 2).sl.cur0, s32 (slewRun 3).sl.cur0, s32 (slewRun 2).sl.cur1) = (2, 3, -2) := by decide

theorem witness_SlewPotZeroTracksAtOnce :
    SlewLegal State.reset.sl ∧ 10000 ≤ State.reset.cfg.slFullrangeMv.toNat ∧
    (withArgs 9000 (-7000) 0 0 State.reset).arg.r3.toNat % 65536 = 0 ∧
    resOf (exec (.slStep false) (withArgs 9000 (-7000) 0 0 State.reset)) = some (10000, 0, 5000, -5000) := by decide

theorem witness_EocExactlyWhenDecayCompletes :
    exec (.envTick false false) (withArgs 81024 0 0 0 (inStage .decay)) =
      .next (storeEnv (envTickOf false false (withArgs 81024 0 0 0 (inStage .decay)))
        (withArgs 81024 0 0 0 (inStage .decay))) := rfl

/-- Each clause at an end of its range, from 95_test_vectors.md E2 (dead zone 500, base 80024). -/
theorem witness_CvHalvesAndDoublesAttack :
    State.reset.cfg.envCvDzMv.toNat ≤ 4999 ∧ State.reset.cfg.envTminUs.toNat ≤ State.reset.cfg.envTmaxUs.toNat ∧
    cvModulate State.reset.cfg 80024 (-500) = 80024 ∧ cvModulate State.reset.cfg 80024 501 = 80016 ∧
    cvModulate State.reset.cfg 80024 5000 = 40012 ∧ cvModulate State.reset.cfg 80024 9000 = 40012 ∧
    cvModulate State.reset.cfg 80024 (-2750) = 120036 ∧ cvModulate State.reset.cfg 80024 (-5000) = 160048 := by decide

theorem witness_EnvValueDependsOnlyOnNow :
    (withArgs 41012 0 0 0 (inStage .attack)).env.stage ≠ .idle ∧
    ((81023 : Word) - (inStage .attack).env.start).toNat < (inStage .attack).env.dur.toNat ∧
    ((1000 : Word) - (inStage .decay).env.start).toNat < (inStage .decay).env.dur.toNat := by decide

theorem witness_XorshiftIsInjective :
    xorshift 0x80000000 = 0x80084000 ∧ xorshift 0xFFFFFFFF = 0x0003E01F ∧
    xorshift 0 = xorshift 0 := by decide

theorem witness_DrawsFillTheWindow :
    drawValue 0 (u32 4095) = 5000 ∧ drawValue 5000 (u32 4096) = 0 ∧ drawValue 5000 (u32 8191) = 10000 := by decide

theorem witness_ScaleNotesAreFixedPoints :
    IsScaleNote .major 0 ∧ IsScaleNote .wholeTone 120 ∧ IsScaleNote .minor 118 ∧ IsScaleNote .pentatonic 9 ∧
    IsScaleNote .chromatic 1 ∧ IsScaleNote .unquantized 1 := by
  simp [IsScaleNote]

/-- The default threshold is 60000: 60001 is external, 60000 is not (95_test_vectors.md N6). -/
theorem witness_ExternalChannelsWaitForTheClock :
    State.reset.cfg.nzExtThresh.toNat < (withArgs 0 0 60001 0 State.reset).arg.r2.toNat % 65536 ∧
    ¬ State.reset.cfg.nzExtThresh.toNat < (withArgs 0 0 60000 0 State.reset).arg.r2.toNat % 65536 ∧
    State.reset.cfg.nzExtThresh.toNat < (withArgs 0 0 0xEA61EA61 0 State.reset).arg.r2.toNat / 65536 := by decide

/-- An armed pulse one µs before its deadline is on, at its deadline off. -/
theorem witness_PulseEndsAtItsDeadline :
    PulseDuty 11000 10999 ∧ PulseDuty 11000 11000 ∧ u32 11000 = clockReading 11000 ∧
    resOf (exec (.nzTick false true)
      (withArgs 10999 0 0 0 { State.reset with nz := { State.reset.nz with armed := true, armedUntil := 11000 } })) =
      some (5000, 5000, 1, 1) ∧
    resOf (exec (.nzTick false true)
      (withArgs 11000 0 0 0 { State.reset with nz := { State.reset.nz with armed := true, armedUntil := 11000 } })) =
      some (5000, 5000, 0, 1) := by decide

theorem witness_CommandsKeepHostRegisters : Instr.nop.wf = true ∧ exec .nop State.reset = .next State.reset :=
  ⟨rfl, rfl⟩

theorem witness_EnginesShareNoState :
    Instr.nzDraw.wf = true ∧ Instr.nzDraw.op ≠ .slStep ∧ Instr.nzDraw.op ≠ .envTick ∧ Instr.nzDraw.op ≠ .nzTick ∧
    Instr.clamp.op ≠ .nzDraw ∧ Instr.smProcess 0 ≠ .smProcess 1 ∧
    resOf (exec .nzDraw State.reset) = some (270369, 0, 0, 0) := by decide

theorem witness_OnlyCommandsWriteResults :
    Instr.clamp.wf = true ∧ Instr.clamp ≠ .nop ∧ decode 5 = .error .reservedOp ∧
    (pendingAccess (.write 0x00 .word 5)).pending = .write 0x00 .word 5 :: [] ∧
    after (fun s => s.res) (step (pendingAccess (.write 0x00 .word 5))) = some ⟨0, 0, 0, 0⟩ ∧
    (Access.write 0x20 .word 5) ≠ .reset ∧
    after (fun s => s.res) (step (pendingAccess (.write 0x20 .word 5))) = some ⟨0, 0, 0, 0⟩ := by decide

/-- Each outcome of OneAccessRaisesOneError: no error, an illegal command, a bad access. -/
theorem witness_OneAccessRaisesOneError :
    (pendingAccess (.write 0x00 .word 5)).status = 0 ∧
    (pendingAccess (.write 0x00 .word 5)).pending.head? ≠ some .reset ∧
    after (fun s => s.status) (step (pendingAccess (.write 0x00 .word 1))) = some 0 ∧
    after (fun s => s.status) (step (pendingAccess (.write 0x00 .word 5))) = some 1 ∧
    after (fun s => s.status) (step (pendingAccess (.write 0x00 .byte 5))) = some 2 := by decide

/-- A recorded illegal command stays recorded through a bad access. -/
theorem witness_ErrorBitsAreSticky :
    (pendingAccess (.read 0x30 .word)).pending.head? ≠ some .reset ∧
    (∀ v, (pendingAccess (.read 0x30 .word)).pending.head? ≠ some (.write 0x04 .word v)) ∧
    after (fun s => s.status) (step { pendingAccess (.read 0x30 .word) with status := 1 }) = some 3 := by
  refine ⟨by decide, fun v h => ?_, by decide⟩
  simp [pendingAccess] at h

theorem witness_HostRegistersChangeOnlyByTheirWrites :
    (∀ v, (pendingAccess (.write 0x14 .word 9)).pending.head? ≠ some (.write 0x10 .word v)) ∧
    after (fun s => s.arg) (step (pendingAccess (.write 0x14 .word 9))) = some ⟨0, 9, 0, 0⟩ := by
  refine ⟨fun v h => ?_, by decide⟩
  simp [pendingAccess] at h

theorem witness_NoStateIsHidden : State.reset.status.toNat < 4 ∧ State.reset.params = State.reset.params := by decide

theorem witness_ResetIsInTheDomains : Config.resetParams.Legal := by decide

/-- A command, and an access that records an error. -/
theorem witness_EveryStepKeepsTheDomains :
    InDomains (pendingAccess (.write 0x00 .word 0x41)) ∧
    after (fun s => s.cfg.nzSeed) (step (pendingAccess (.write 0x00 .word 0x41))) = some 270369 ∧
    InDomains (pendingAccess (.read 0xFC .word)) ∧
    after (fun s => s.errAddr) (step (pendingAccess (.read 0xFC .word))) = some 0xFC :=
  ⟨by decide, by decide, by decide, by decide⟩

end Sys2Proof.Tests
end

section
/-! SUPPORT. What a legal command makes of the machine, and everything a step can do. Each statement about every command
or every step is a case split along these two. -/

namespace Sys2Proof.Proofs

open Sys2Proof.Machine Sys2Proof.Safety Sys2Proof.Laws

/-! ## The next state of a legal command (30_encoding.md R110) -/

/-- The machine after a well-formed command: `exec` without its outcome, which is always a next state. -/
def commandNext (i : Instr) (s : State) : State :=
  match i with
  | .nop => s
  | .clamp => writeResult (clamp (sArg0 s) (sArg1 s) (sArg2 s)) s
  | .mulq15 => writeResult (mulQ15 (sArg0 s) (sArg1 s)) s
  | .blendq15 => writeResult (blendQ15 (sArg0 s) (sArg1 s) (sArg2 s)) s
  | .u8toq15 => writeResult (u8ToQ15 (sArg0 s)) s
  | .smProcess sel =>
    storeSmoother sel (smootherProcess (smInstance sel s) (sArg0 s) (smAlpha sel s) (smDeadband sel s)) s
  | .smReset sel => writeResult (sArg0 s) (setSmInstance sel (smootherReset (sArg0 s)) s)
  | .slStep toggleLink => storeSlew (slewNext toggleLink s) s
  | .envTick trig cvmod => storeEnv (envTickOf trig cvmod s) s
  | .nzTick clk hold =>
    storeNoise (nzBeforePulse clk hold s) (firedFlag hold (firesB clk s)) (firedFlag hold (firesA clk s)) s
  | .nzDraw => writeRes (xorshift s.cfg.nzSeed) 0 0 0 (storeSeed (xorshift s.cfg.nzSeed) s)
  | .nzQuant sel => writeResult (quantize (sArg0 s) (scaleOfIndex sel.toNat)) s

theorem exec_eq_commandNext {i : Instr} (h : i.wf = true) (s : State) : exec i s = .next (commandNext i s) := by
  cases i with
  | smProcess sel => exact exec_smProcess_legal (of_decide_eq_true h) s
  | smReset sel => exact exec_smReset_legal (of_decide_eq_true h) s
  | nzQuant sel => exact exec_nzQuant_legal (of_decide_eq_true h) s
  | _ => rfl

theorem eq_commandNext {i : Instr} {s t : State} (hi : i.wf = true) (h : exec i s = .next t) : t = commandNext i s := by
  rw [exec_eq_commandNext hi] at h
  exact (Host.Outcome.next.inj h).symm

theorem wf_instrOf {o : Op} {sel : Sel} (flags : FlagBits) (h : sel.toNat ≤ o.selMax) :
    (instrOf o sel flags).wf = true := by
  cases o with
  | smProcess => exact decide_eq_true h
  | smReset => exact decide_eq_true h
  | nzQuant => exact decide_eq_true h
  | _ => rfl

/-- The decoder gives well-formed commands only (30_encoding.md R113). -/
theorem wf_of_decode {w : Word} {i : Instr} (h : decode w = .ok i) : i.wf = true := by
  unfold decode at h
  split at h
  · simp at h
  · split at h
    · simp at h
    · split at h
      · simp at h
      · split at h
        · simp at h
        · rw [← Except.ok.inj h]
          exact wf_instrOf _ (by omega)

/-! ## The smoother's store -/

@[simp] theorem storeSmoother_eq (sel : Sel) (m : Smoother) (s : State) :
    storeSmoother sel m s = writeRes m.out 0 0 0 (setSmInstance sel m s) := rfl

/-! ## Legal writes -/

/-- The machine after a legal write to a register other than CMD, which runs no command. -/
def writeNext (r : Reg) (v : Word) (s : State) : State :=
  match r with
  | .status => clearErrors v s
  | .arg0 => { s with arg := { s.arg with r0 := v } }
  | .arg1 => { s with arg := { s.arg with r1 := v } }
  | .arg2 => { s with arg := { s.arg with r2 := v } }
  | .arg3 => { s with arg := { s.arg with r3 := v } }
  | .cfg n => { s with cfg := setCfg n (warl n v) s.cfg }
  | _ => s

theorem writeReg_eq_writeNext {r : Reg} (h : r ≠ .cmd) (v : Word) (s : State) :
    writeReg r v s = .next (writeNext r v s) := by
  cases r with
  | cmd => exact absurd rfl h
  | _ => rfl

theorem step_writeNext {s : State} {r : Reg} {v : Word} {rest : List Access} (hro : readOnly r = false) (hr : r ≠ .cmd)
    (h : s.pending = .write (regOffset r) .word v :: rest) : step s = .next (writeNext r v (setPending rest s)) := by
  rw [step_write hro h, writeReg_eq_writeNext hr]

theorem regOffset_of_regAt {off : Offset} {r : Reg} (h : regAt off = some r) : regOffset r = off := by
  simpa using List.find?_some h

/-- A legal write has the one legal size and its register's offset, and its register is writable (20_memory.md R82). -/
theorem writeTarget_some {off : Offset} {n : Size} {r : Reg} (h : writeTarget off n = some r) :
    off = regOffset r ∧ n = .word ∧ readOnly r = false := by
  unfold writeTarget at h
  split at h
  · simp at h
  · next r' hr' =>
    split at h
    · simp at h
    · next hro =>
      obtain rfl := Option.some.inj h
      obtain ⟨hal, hat⟩ := readTarget_some.mp hr'
      refine ⟨(regOffset_of_regAt hat).symm, ?_, by simpa using hro⟩
      cases n with
      | word => rfl
      | byte => simp [alignedWord, sizeBytes] at hal
      | half => simp [alignedWord, sizeBytes] at hal

/-! ## Everything a step can do (20_memory.md R82, R85, R90; 30_encoding.md R110) -/

/-- The next states of a machine, by what the host's oldest access is. -/
inductive StepTo (s : State) : State → Prop where
  /-- No access is pending. -/
  | idle (h : s.pending = []) : StepTo s s
  /-- A legal read. -/
  | read {off : Offset} {n : Size} {rest : List Access} {r : Reg} (h : s.pending = .read off n :: rest)
    (hr : readTarget off n = some r) : StepTo s (returnValue (readReg r (setPending rest s)) (setPending rest s))
  /-- A read that is not legal. -/
  | badRead {off : Offset} {n : Size} {rest : List Access} (h : s.pending = .read off n :: rest)
    (hr : readTarget off n = none) : StepTo s (returnValue 0 (raiseBadAccess off (setPending rest s)))
  /-- A write that is not legal. -/
  | badWrite {off : Offset} {n : Size} {v : Word} {rest : List Access} (h : s.pending = .write off n v :: rest)
    (hw : writeTarget off n = none) : StepTo s (raiseBadAccess off (setPending rest s))
  /-- A legal write to CMD of a word that is no command. -/
  | illegalCommand {w : Word} {rest : List Access} {e : DecodeError}
    (h : s.pending = .write (regOffset .cmd) .word w :: rest) (hd : decode w = .error e) :
    StepTo s (raiseIllegalCommand w (storeCmd w (setPending rest s)))
  /-- A legal write to CMD of a command's word. -/
  | command {w : Word} {rest : List Access} {i : Instr}
    (h : s.pending = .write (regOffset .cmd) .word w :: rest) (hd : decode w = .ok i) :
    StepTo s (commandNext i (storeCmd w (setPending rest s)))
  /-- A legal write to another register. -/
  | write {r : Reg} {v : Word} {rest : List Access} (h : s.pending = .write (regOffset r) .word v :: rest)
    (hro : readOnly r = false) (hr : r ≠ .cmd) : StepTo s (writeNext r v (setPending rest s))
  /-- Reset. -/
  | reset {rest : List Access} (h : s.pending = .reset :: rest) : StepTo s (resetBlock (setPending rest s))

theorem stepTo_of_read {s t : State} {off : Offset} {n : Size} {rest : List Access}
    (h : s.pending = .read off n :: rest) (ht : t = memRead off n (setPending rest s)) : StepTo s t := by
  subst ht
  unfold memRead
  split
  · exact .read h ‹_›
  · exact .badRead h ‹_›

theorem stepTo_of_commandWrite {s t : State} {w : Word} {rest : List Access}
    (h : s.pending = .write (regOffset .cmd) .word w :: rest)
    (ht : execute w (storeCmd w (setPending rest s)) = .next t) : StepTo s t := by
  rcases execute_cases w (storeCmd w (setPending rest s)) with ⟨⟨e, hd⟩, he⟩ | ⟨i, hd, he⟩
  · obtain rfl := Host.Outcome.next.inj (he.symm.trans ht)
    exact .illegalCommand h hd
  · obtain rfl := eq_commandNext (wf_of_decode hd) (he.symm.trans ht)
    exact .command h hd

theorem stepTo_of_write {s t : State} {off : Offset} {n : Size} {v : Word} {rest : List Access}
    (h : s.pending = .write off n v :: rest) (ht : memWrite off n v (setPending rest s) = .next t) : StepTo s t := by
  unfold memWrite at ht
  split at ht
  · next r hr =>
    obtain ⟨rfl, rfl, hro⟩ := writeTarget_some hr
    by_cases hc : r = .cmd
    · subst hc
      exact stepTo_of_commandWrite h ht
    · rw [writeReg_eq_writeNext hc] at ht
      obtain rfl := Host.Outcome.next.inj ht
      exact .write h hro hc
  · obtain rfl := Host.Outcome.next.inj ht
    exact .badWrite h ‹_›

theorem step_stepTo {s t : State} (h : step s = .next t) : StepTo s t := by
  rcases performNext_cases s with ⟨hp, he⟩ | ⟨a, rest, hp, he⟩
  · obtain rfl := Host.Outcome.next.inj (he.symm.trans h)
    exact .idle hp
  · have ht : performAccess a (setPending rest s) = .next t := he.symm.trans h
    cases a with
    | read off n => exact stepTo_of_read hp (Host.Outcome.next.inj ht).symm
    | write off n v => exact stepTo_of_write hp ht
    | reset =>
      obtain rfl := Host.Outcome.next.inj ht
      exact .reset hp

end Sys2Proof.Proofs
end

section
/-! SUPPORT. The legal accesses of the host: what a write to CMD, STATUS, ARG and a configuration register makes of the
machine (O5, O10, O11, O12), and the state after reset (O13). -/

namespace Sys2Proof.Proofs

open Sys2Proof.Machine Sys2Proof.Safety Sys2Proof.Laws

/-- Settles O5. -/
theorem stepRunsTheDecodedCommand : Obligations.StepRunsTheDecodedCommand := by
  intro s w i rest hp hd
  have hstep : step s = execute w (storeCmd w (setPending rest s)) := step_write (r := .cmd) rfl hp
  rw [hstep, execute, hd]
  rfl

theorem step_legalWrite {s u : State} {v : Word} {rest : List Access} (r : Reg) (hro : readOnly r = false)
    (hr : r ≠ .cmd) (hu : writeNext r v { s with pending := rest } = u) :
    step { s with pending := .write (regOffset r) .word v :: rest } = .next u := by
  subst hu
  exact step_writeNext hro hr rfl

/-- Settles O10: the four ARG registers are writable registers other than CMD. -/
theorem operandWriteStoresTheWord : Obligations.OperandWriteStoresTheWord := by
  intro s v rest
  simp only [List.forall_mem_cons]
  exact ⟨step_legalWrite .arg0 rfl nofun rfl, step_legalWrite .arg1 rfl nofun rfl,
    step_legalWrite .arg2 rfl nofun rfl, step_legalWrite .arg3 rfl nofun rfl, nofun⟩

/-- Settles O11. -/
theorem statusWriteClearsWrittenOnes : Obligations.StatusWriteClearsWrittenOnes := fun _ _ _ =>
  step_legalWrite .status rfl nofun rfl

/-! ## The legal values of 10_state.md R41 -/

theorem u32_clamp_eq_max_min {hi : Int} (h : 0 ≤ hi) (w : Word) :
    u32 (clamp (s32 w) 0 hi) = BitVec.ofInt 32 (max 0 (min w.toInt hi)) := by
  rw [clamp_eq_max_min h]
  rfl

/-- Clamping a signed word to 0..2^31-1 changes only negative ones. -/
theorem u32_clamp_nonneg (w : Word) : u32 (clamp (s32 w) 0 2147483647) = if w.toInt < 0 then 0 else w := by
  have hw := s32_upper w
  unfold clamp
  split
  · next hneg => exact (if_pos hneg).symm
  · next hneg =>
    split
    · omega
    · exact (u32_s32 w).trans (if_neg hneg).symm

theorem u32_min_65535 (w : Word) : u32 (min (unsigned w) 65535) = if w.toNat ≤ 65535 then w else 65535 := by
  split
  · next h =>
    rw [min_eq_left (by simp only [unsigned]; omega)]
    exact u32_unsigned w
  · next h =>
    rw [min_eq_right (by simp only [unsigned]; omega)]
    rfl

theorem step_cfgWrite {s : State} {c : CfgRegs} {w : Word} {rest : List Access} (n : CfgName)
    (hc : setCfg n (warl n w) s.cfg = c) :
    step { s with pending := .write (cfgOffset n) .word w :: rest } = .next { s with pending := rest, cfg := c } := by
  subst hc
  exact step_legalWrite (.cfg n) rfl nofun rfl

/-- Settles O12: a legal write to a configuration register stores `warl`, whose clamps are those of the table. -/
theorem configWriteStoresTheLegalValue : Obligations.ConfigWriteStoresTheLegalValue := by
  intro s w rest
  have hq15 := u32_clamp_eq_max_min (hi := 32768) (by decide) w
  have hdz := u32_clamp_eq_max_min (hi := 4999) (by decide) w
  have hpos := u32_clamp_nonneg w
  have hthresh := u32_min_65535 w
  simp only [List.forall_mem_cons]
  refine ⟨step_cfgWrite .sm0Alpha ?_, step_cfgWrite .sm0Deadband ?_, step_cfgWrite .sm1Alpha ?_,
    step_cfgWrite .sm1Deadband ?_, step_cfgWrite .slSmAlpha ?_, step_cfgWrite .slSmDeadband ?_,
    step_cfgWrite .slTmaxUs ?_, step_cfgWrite .slDenomMinUs ?_, step_cfgWrite .slFullrangeMv ?_,
    step_cfgWrite .envTminUs ?_, step_cfgWrite .envTmaxUs ?_, step_cfgWrite .envCvDzMv ?_,
    step_cfgWrite .nzTminUs ?_, step_cfgWrite .nzTmaxUs ?_, step_cfgWrite .nzExtThresh ?_,
    step_cfgWrite .nzPulseUs ?_, step_cfgWrite .nzSeed ?_, nofun⟩ <;>
  simp only [setCfg, warl, hq15, hdz, hpos, hthresh]

/-! ## Reset -/

/-- Settles O13: the table of 10_state.md R70 is `State.resetWith`, which `State.reset` gives legal parameters. -/
theorem resetHoldsTheSpecValues : Obligations.ResetHoldsTheSpecValues :=
  ⟨fun _ => ⟨rfl, rfl, rfl, rfl, rfl, rfl, rfl, rfl, rfl, rfl, rfl, rfl⟩, Config.resetParams, by decide, rfl⟩

end Sys2Proof.Proofs
end

section
/-! SUPPORT. The domains of 10_state.md are an invariant: every write stores a legal value, every command keeps its
engine's domain, and every step is made of these (O59, O60). -/

namespace Sys2Proof.Proofs

open Sys2Proof.Machine Sys2Proof.Safety Sys2Proof.Laws

/-! ## The error registers (10_state.md R32 to R34) -/

theorem or_status_lt_four {x b : Word} (hx : x.toNat < 4) (hb : b.toNat < 4) : (x ||| b).toNat < 4 := by
  rw [BitVec.toNat_or]
  exact Nat.or_lt_two_pow (n := 2) hx hb

theorem statusWrite_le (v x : Word) : (statusWrite v x).toNat ≤ x.toNat := by
  unfold statusWrite
  rw [BitVec.toNat_and]
  exact Nat.and_le_left

theorem zext32_offset_lt (off : Offset) : (zext32 off).toNat < 256 := by
  have := off.isLt
  simp only [zext32, BitVec.toNat_setWidth]
  omega

theorem raiseBadAccess_inDomains {s : State} (off : Offset) (h : InDomains s) : InDomains (raiseBadAccess off s) := by
  obtain ⟨⟨hst, hec, -⟩, hrest⟩ := h
  refine ⟨⟨?_, hec, zext32_offset_lt off⟩, hrest⟩
  rw [raiseBadAccess_status, statusSet_badAccess]
  exact or_status_lt_four hst (by decide)

theorem raiseIllegalCommand_inDomains {s : State} {w : Word} {e : DecodeError} (hd : decode w = .error e)
    (h : InDomains s) : InDomains (raiseIllegalCommand w s) := by
  obtain ⟨⟨hst, -, hea⟩, hrest⟩ := h
  refine ⟨⟨?_, .inr ?_, hea⟩, hrest⟩
  · rw [raiseIllegalCommand_status, statusSet_illegalCmd]
    exact or_status_lt_four hst (by decide)
  · rw [raiseIllegalCommand_errCmd, hd]
    rfl

theorem clearErrors_inDomains {s : State} (v : Word) (h : InDomains s) : InDomains (clearErrors v s) := by
  obtain ⟨⟨hst, herr⟩, hrest⟩ := h
  exact ⟨⟨(statusWrite_le v s.status).trans_lt hst, herr⟩, hrest⟩

/-! ## Configuration writes (10_state.md R41) -/

theorem toNat_u32_clamp_le {hi : Int} (h0 : 0 ≤ hi) (h1 : hi < 4294967296) (v : Int) :
    (u32 (clamp v 0 hi)).toNat ≤ hi.toNat := by
  obtain ⟨hlo, hle⟩ := clamp_range h0 v
  rw [toNat_u32 hlo (by omega)]
  omega

theorem toNat_u32_min_le (w : Word) : (u32 (min (unsigned w) 65535)).toNat ≤ 65535 := by
  have := unsigned_nonneg w
  rw [toNat_u32 (by omega) (by omega)]
  omega

theorem setCfg_warl_legal {c : CfgRegs} (h : CfgLegal c) (n : CfgName) (w : Word) : CfgLegal (setCfg n (warl n w) c) := by
  obtain ⟨hsm0a, hsm1a, hsla, hsm0d, hsm1d, hsld, hfr, hdz, hth⟩ := h
  have hq15 := toNat_u32_clamp_le (hi := 32768) (by decide) (by decide) (s32 w)
  have hpos := Nat.lt_succ_of_le (toNat_u32_clamp_le (hi := 2147483647) (by decide) (by decide) (s32 w))
  cases n with
  | sm0Alpha => exact ⟨hq15, hsm1a, hsla, hsm0d, hsm1d, hsld, hfr, hdz, hth⟩
  | sm1Alpha => exact ⟨hsm0a, hq15, hsla, hsm0d, hsm1d, hsld, hfr, hdz, hth⟩
  | slSmAlpha => exact ⟨hsm0a, hsm1a, hq15, hsm0d, hsm1d, hsld, hfr, hdz, hth⟩
  | sm0Deadband => exact ⟨hsm0a, hsm1a, hsla, hpos, hsm1d, hsld, hfr, hdz, hth⟩
  | sm1Deadband => exact ⟨hsm0a, hsm1a, hsla, hsm0d, hpos, hsld, hfr, hdz, hth⟩
  | slSmDeadband => exact ⟨hsm0a, hsm1a, hsla, hsm0d, hsm1d, hpos, hfr, hdz, hth⟩
  | slFullrangeMv => exact ⟨hsm0a, hsm1a, hsla, hsm0d, hsm1d, hsld, hpos, hdz, hth⟩
  | envCvDzMv =>
    exact ⟨hsm0a, hsm1a, hsla, hsm0d, hsm1d, hsld, hfr,
      toNat_u32_clamp_le (hi := 4999) (by decide) (by decide) (s32 w), hth⟩
  | nzExtThresh => exact ⟨hsm0a, hsm1a, hsla, hsm0d, hsm1d, hsld, hfr, hdz, toNat_u32_min_le w⟩
  | _ => exact ⟨hsm0a, hsm1a, hsla, hsm0d, hsm1d, hsld, hfr, hdz, hth⟩

theorem writeNext_inDomains {s : State} (r : Reg) (v : Word) (h : InDomains s) : InDomains (writeNext r v s) := by
  cases r with
  | status => exact clearErrors_inDomains v h
  | cfg n =>
    obtain ⟨herr, hcfg, hrest⟩ := h
    exact ⟨herr, setCfg_warl_legal hcfg n v, hrest⟩
  | _ => exact h

/-! ## The slew limiter (42_slew.md R198, R199) -/

/-- A smoother whose target and output lie in lo..hi stays there (41_smoother.md R171). -/
theorem smootherProcess_range {m : Smoother} {lo hi target alpha deadband : Int} (hlo : -2147483648 ≤ lo)
    (hhi : hi < 2147483648) (hm : lo ≤ s32 m.out ∧ s32 m.out ≤ hi) (ht : lo ≤ target ∧ target ≤ hi) (h0 : 0 ≤ alpha)
    (h1 : alpha ≤ 32768) :
    lo ≤ s32 (smootherProcess m target alpha deadband).out ∧ s32 (smootherProcess m target alpha deadband).out ≤ hi := by
  rcases smootherProcess_cases m target alpha deadband with ⟨-, he⟩ | ⟨-, -, he⟩ | ⟨-, -, he⟩
  · rw [he, s32_u32 (by omega) (by omega)]
    exact ht
  · rwa [he]
  · have hstep := smootherStep_toward (d := target - s32 m.out) h0 h1
    have hzero : smootherStep 0 alpha = 0 := by simp [smootherStep, mulQ15, tdiv, sgn]
    have hb : lo ≤ s32 m.out + smootherStep (target - s32 m.out) alpha ∧
        s32 m.out + smootherStep (target - s32 m.out) alpha ≤ hi := by
      rcases lt_trichotomy 0 (target - s32 m.out) with hd | hd | hd
      · have := hstep.1 hd; omega
      · rw [← hd, hzero]; omega
      · have := hstep.2 hd; omega
    rw [he, s32_u32 (by omega) (by omega)]
    exact hb

theorem slewRate_range {diff riseQ fallQ : Int} (hr : 0 ≤ riseQ ∧ riseQ ≤ 32768) (hf : 0 ≤ fallQ ∧ fallQ ≤ 32768) :
    0 ≤ slewRate diff riseQ fallQ ∧ slewRate diff riseQ fallQ ≤ 32768 := by
  unfold slewRate
  split
  · exact hr
  · exact hf

theorem slewFallQ_range (linked : Bool) (arg3 : Word) :
    0 ≤ slewFallQ linked arg3 ∧ slewFallQ linked arg3 ≤ 32768 := by
  unfold slewFallQ
  split
  · exact potCurve_range _
  · exact potCurve_range _

/-- A channel moves toward its target and not past it, so it stays in the bipolar domain (42_slew.md R198). -/
theorem slewChannelOf_range (toggleLink : Bool) (s : State) (arg : Word) {cur : Word}
    (h : -5000 ≤ s32 cur ∧ s32 cur ≤ 5000) :
    -5000 ≤ s32 (slewChannelOf toggleLink s arg cur) ∧ s32 (slewChannelOf toggleLink s arg cur) ≤ 5000 := by
  unfold slewChannelOf
  rcases slewChannel_cases s.cfg (elapsed s.arg.r2 s.sl.last) (slewRiseQ s.arg.r3)
    (slewFallQ (slewLinked toggleLink s.sl) s.arg.r3) (slewShapeQ s.arg.r3) arg cur with ⟨-, he⟩ | ⟨hne, he⟩
  · rwa [he]
  · have htgt := slewTarget_range arg
    obtain ⟨hr0, hr1⟩ := slewRate_range (diff := slewTarget arg - s32 cur) (potCurve_range (pot0 s.arg.r3))
      (slewFallQ_range (slewLinked toggleLink s.sl) s.arg.r3)
    obtain ⟨hc0, hc1⟩ := slewCoeff_range s.cfg (elapsed_nonneg s.arg.r2 s.sl.last) hr0 hr1
    obtain ⟨hs0, hs1⟩ := u8ToQ15_range (pot2 s.arg.r3)
    obtain ⟨hup, hdown⟩ := slewStep_toward s.cfg (d := slewTarget arg - s32 cur) hc0 hc1 hs0 hs1
    rw [he, s32_u32] <;>
    · simp only [slewRiseQ, slewShapeQ]
      rcases Int.lt_or_gt_of_ne hne with hlt | hgt
      · have := hdown (by omega); omega
      · have := hup (by omega); omega

theorem slewOutput_range {cfg : CfgRegs} {m : Smoother} (hcfg : CfgLegal cfg) (hm : 0 ≤ s32 m.out ∧ s32 m.out ≤ 10000)
    (cur : Word) : 0 ≤ s32 (slewOutput cfg m cur).out ∧ s32 (slewOutput cfg m cur).out ≤ 10000 := by
  obtain ⟨-, -, halpha, -⟩ := hcfg
  exact smootherProcess_range (by decide) (by decide) hm (clamp_range (by decide) _) (unsigned_nonneg _)
    (by simp only [cfgVal, unsigned]; omega)

theorem slewNext_legal (toggleLink : Bool) {s : State} (hcfg : CfgLegal s.cfg) (h : SlewLegal s.sl) :
    SlewLegal (slewNext toggleLink s) := by
  obtain ⟨hcur0, hcur1, hA, hB⟩ := h
  exact ⟨slewChannelOf_range toggleLink s s.arg.r0 hcur0, slewChannelOf_range toggleLink s s.arg.r1 hcur1,
    slewOutput_range hcfg hA _, slewOutput_range hcfg hB _⟩

/-! ## The envelope (43_envelope.md R221, R225) -/

theorem toNat_u32_le {v : Int} {m : Nat} (h : 0 ≤ v ∧ v ≤ m) (hm : m < 4294967296) : (u32 v).toNat ≤ m := by
  rw [toNat_u32 h.1 (by omega)]
  omega

theorem attackShape_range {shapeQ x : Int} (hs : 0 ≤ shapeQ ∧ shapeQ ≤ 32768) (hx : 0 ≤ x ∧ x ≤ 32767) :
    0 ≤ attackShape shapeQ x ∧ attackShape shapeQ x ≤ 32768 := by
  have hsq := mulQ15_range hx.1 hx.1 (by omega)
  exact blendQ15_range hx.1 (by omega) hsq.1 (by omega) hs.1 hs.2

theorem decayShape_range {shapeQ x : Int} (hs : 0 ≤ shapeQ ∧ shapeQ ≤ 32768) (hx : 0 ≤ x ∧ x ≤ 32767) :
    0 ≤ decayShape shapeQ x ∧ decayShape shapeQ x ≤ 32768 := by
  have hsq := mulQ15_range (v := 32768 - x) (g := 32768 - x) (by omega) (by omega) (by omega)
  have hb := blendQ15_range (a := x) (b := 32768 - mulQ15 (32768 - x) (32768 - x)) (m := 32768) hx.1 (by omega)
    (by omega) (by omega) hs.1 hs.2
  unfold decayShape
  omega

theorem envAttack_legal {s : State} (hst : s.env.stage = .attack) : EnvLegal (envAttack s).env := by
  unfold envAttack
  split
  · exact ⟨le_refl 32768, nofun⟩
  · next hover =>
    refine ⟨toNat_u32_le (attackShape_range (u8ToQ15_range _) (envProgress_range ?_)) (by decide), fun hidle => ?_⟩
    · simpa using hover
    · exact absurd (hst.symm.trans hidle) nofun

theorem envDecay_legal {s : State} (hst : s.env.stage = .decay) : EnvLegal (envDecay s).env := by
  unfold envDecay
  split
  · exact ⟨Nat.zero_le _, fun _ => rfl⟩
  · next hover =>
    refine ⟨toNat_u32_le (decayShape_range (u8ToQ15_range _) (envProgress_range ?_)) (by decide), fun hidle => ?_⟩
    · simpa using hover
    · exact absurd (hst.symm.trans hidle) nofun

/-- A tick leaves the envelope in its domain whatever it held. -/
theorem envTickOf_legal (trig cvmod : Bool) (s : State) : EnvLegal (envTickOf trig cvmod s).env := by
  rcases envTickOf_cases trig cvmod s with ⟨-, he⟩ | ⟨-, hst, he⟩ | ⟨-, hst, he⟩ | ⟨-, -, he⟩
  · rw [he]; exact ⟨Nat.zero_le _, nofun⟩
  · rw [he]; exact envAttack_legal hst
  · rw [he]; exact envDecay_legal hst
  · rw [he]; exact ⟨Nat.zero_le _, fun _ => rfl⟩

/-! ## The noise generator (44_noise.md R252, R257) -/

theorem nextSample_le (w : Int) (x : NoiseSeed) : (nextSample w x).toNat ≤ 10000 :=
  toNat_u32_le (quantize_range _ _) (by decide)

@[simp] theorem armPulse_cur1 (cfg : CfgRegs) (now q : Word) (nz : Noise) : (armPulse cfg now q nz).cur1 = nz.cur1 := by
  unfold armPulse
  split <;> rfl

theorem tickA_legal (fires : Bool) (cfg : CfgRegs) (now : Word) (w : Int) {x : NoiseSeed} (h : NoiseLegal x.nz) :
    NoiseLegal (tickA fires cfg now w x).nz := by
  rcases tickA_cases fires cfg now w x with ⟨-, he⟩ | ⟨-, he⟩
  · rwa [he]
  · rw [he]
    exact ⟨nextSample_le w x, by simpa [resampleA] using h.2⟩

theorem tickB_legal (fires : Bool) (now : Word) (w : Int) {x : NoiseSeed} (h : NoiseLegal x.nz) :
    NoiseLegal (tickB fires now w x).nz := by
  rcases tickB_cases fires now w x with ⟨-, he⟩ | ⟨-, he⟩
  · rwa [he]
  · rw [he]
    exact ⟨h.1, nextSample_le w x⟩

theorem nzBeforePulse_legal (clk hold : Bool) {s : State} (h : NoiseLegal s.nz) :
    NoiseLegal (nzBeforePulse clk hold s).nz := by
  unfold nzBeforePulse
  split
  · exact h
  · exact tickB_legal _ _ _ (tickA_legal _ _ _ _ h)

/-! ## Commands, reset and steps -/

theorem setSmInstance_inDomains {s : State} (sel : Sel) (m : Smoother) (h : InDomains s) :
    InDomains (setSmInstance sel m s) := by
  unfold setSmInstance
  split <;> exact h

/-- A command keeps the domains: each changes one engine, the kernel and the free smoothers none that has a domain. -/
theorem commandNext_inDomains (i : Instr) {s : State} (h : InDomains s) : InDomains (commandNext i s) := by
  have ⟨herr, hcfg, hsl, henv, hnz, hparams⟩ := h
  cases i with
  | slStep toggleLink => exact ⟨herr, hcfg, slewNext_legal toggleLink hcfg hsl, henv, hnz, hparams⟩
  | envTick trig cvmod => exact ⟨herr, hcfg, hsl, envTickOf_legal trig cvmod s, hnz, hparams⟩
  | nzTick clk hold => exact ⟨herr, hcfg, hsl, henv, nzBeforePulse_legal clk hold hnz, hparams⟩
  | smProcess sel => exact setSmInstance_inDomains sel _ h
  | smReset sel => exact setSmInstance_inDomains sel _ h
  | _ => exact h

/-- The fields that the OPEN parameters do not set are those of `State.reset`, so their domains are closed facts. -/
theorem resetWith_inDomains {p : Config.Params} (hp : p.Legal) : InDomains (State.resetWith p) := by
  have ⟨_, hsma, hsmd, hsla, hsld, hdz, hth⟩ := hp
  have herr : ErrorRegsLegal State.reset := by decide
  have hfr : State.reset.cfg.slFullrangeMv.toNat < 2 ^ 31 := by decide
  have hsl : SlewLegal State.reset.sl := by decide
  have henv : EnvLegal State.reset.env := by decide
  have hnz : NoiseLegal State.reset.nz := by decide
  exact ⟨herr, ⟨hsma, hsma, hsla, hsmd, hsmd, hsld, hfr, hdz, hth⟩, hsl, henv, hnz, hp⟩

/-- Settles O60. -/
theorem resetIsInTheDomains : Obligations.ResetIsInTheDomains :=
  ⟨fun _ => resetWith_inDomains, resetWith_inDomains (by decide)⟩

/-- The host's list and CMD have no domain. -/
theorem setPending_inDomains {s : State} (rest : List Access) (h : InDomains s) : InDomains (setPending rest s) := h

theorem storeCmd_inDomains {s : State} (w : Word) (h : InDomains s) : InDomains (storeCmd w s) := h

theorem returnValue_inDomains {s : State} (v : Word) (h : InDomains s) : InDomains (returnValue v s) := h

/-- Settles O59: each thing a step can do keeps the domains. -/
theorem everyStepKeepsTheDomains : Obligations.EveryStepKeepsTheDomains := by
  intro s t h hstep
  have hp (rest : List Access) := setPending_inDomains rest h
  cases step_stepTo hstep with
  | idle => exact h
  | read => exact returnValue_inDomains _ (hp _)
  | badRead => exact returnValue_inDomains 0 (raiseBadAccess_inDomains _ (hp _))
  | badWrite => exact raiseBadAccess_inDomains _ (hp _)
  | illegalCommand _ hd => exact raiseIllegalCommand_inDomains hd (storeCmd_inDomains _ (hp _))
  | command => exact commandNext_inDomains _ (storeCmd_inDomains _ (hp _))
  | write => exact writeNext_inDomains _ _ (hp _)
  | reset =>
    obtain ⟨-, -, -, -, -, hparams⟩ := h
    exact resetWith_inDomains hparams

end Sys2Proof.Proofs
end

section
/-! SUPPORT. The frames of the commands: which items of state each leaves alone (O51), which it does not even read
(O52, O53). -/

namespace Sys2Proof.Proofs

open Sys2Proof.Machine Sys2Proof.Safety Sys2Proof.Laws

/-! ## The host's side (10_state.md R35, R42) -/

/-- The items that only the host's accesses change: a command keeps them all, and of the configuration registers it may
change NZ_SEED. -/
structure HostSideKept (s t : State) : Prop where
  cmd : t.cmd = s.cmd
  status : t.status = s.status
  errCmd : t.errCmd = s.errCmd
  errAddr : t.errAddr = s.errAddr
  arg : t.arg = s.arg
  cfg : t.cfg = { s.cfg with nzSeed := t.cfg.nzSeed }
  params : t.params = s.params
  pending : t.pending = s.pending
  readLog : t.readLog = s.readLog

theorem commandNext_keeps_hostSide (i : Instr) (s : State) : HostSideKept s (commandNext i s) := by
  cases i with
  | smProcess sel => constructor <;> simp [commandNext]
  | smReset sel => constructor <;> simp [commandNext]
  | _ => exact ⟨rfl, rfl, rfl, rfl, rfl, rfl, rfl, rfl, rfl⟩

/-- Only NZ.TICK and NZ.DRAW write NZ_SEED (10_state.md R60). -/
theorem commandNext_nzSeed {i : Instr} (htick : i.op ≠ .nzTick) (hdraw : i.op ≠ .nzDraw) (s : State) :
    (commandNext i s).cfg.nzSeed = s.cfg.nzSeed := by
  cases i with
  | nzTick => exact absurd rfl htick
  | nzDraw => exact absurd rfl hdraw
  | smProcess sel => simp [commandNext]
  | smReset sel => simp [commandNext]
  | _ => rfl

/-- Settles O51. -/
theorem commandsKeepHostRegisters : Obligations.CommandsKeepHostRegisters := by
  intro i s t hi ht
  obtain rfl := eq_commandNext hi ht
  have h := commandNext_keeps_hostSide i s
  exact ⟨h.cmd, h.status, h.errCmd, h.errAddr, h.arg, h.cfg, fun htick hdraw => commandNext_nzSeed htick hdraw s,
    h.params, h.pending, h.readLog⟩

/-! ## The engines (10_state.md R61)

One lemma per engine: its state goes through a command of another engine unread and unwritten. The smoother commands select
one of two by SEL, 0 or 1. -/

theorem sel_of_wf_smProcess {sel : Sel} (h : (Instr.smProcess sel).wf = true) : sel = 0 ∨ sel = 1 :=
  sel_zero_or_one (of_decide_eq_true h)

theorem sel_of_wf_smReset {sel : Sel} (h : (Instr.smReset sel).wf = true) : sel = 0 ∨ sel = 1 :=
  sel_zero_or_one (of_decide_eq_true h)

theorem commandNext_with_sl {i : Instr} (hi : i.wf = true) (h : i.op ≠ .slStep) (s : State) (x : Slew) :
    commandNext i { s with sl := x } = { commandNext i s with sl := x } := by
  cases i with
  | slStep => exact absurd rfl h
  | smProcess sel => obtain rfl | rfl := sel_of_wf_smProcess hi <;> rfl
  | smReset sel => obtain rfl | rfl := sel_of_wf_smReset hi <;> rfl
  | _ => rfl

theorem commandNext_with_env {i : Instr} (hi : i.wf = true) (h : i.op ≠ .envTick) (s : State) (x : Env) :
    commandNext i { s with env := x } = { commandNext i s with env := x } := by
  cases i with
  | envTick => exact absurd rfl h
  | smProcess sel => obtain rfl | rfl := sel_of_wf_smProcess hi <;> rfl
  | smReset sel => obtain rfl | rfl := sel_of_wf_smReset hi <;> rfl
  | _ => rfl

theorem commandNext_with_nz {i : Instr} (hi : i.wf = true) (h : i.op ≠ .nzTick) (s : State) (x : Noise) :
    commandNext i { s with nz := x } = { commandNext i s with nz := x } := by
  cases i with
  | nzTick => exact absurd rfl h
  | smProcess sel => obtain rfl | rfl := sel_of_wf_smProcess hi <;> rfl
  | smReset sel => obtain rfl | rfl := sel_of_wf_smReset hi <;> rfl
  | _ => rfl

theorem commandNext_with_seed {i : Instr} (hi : i.wf = true) (htick : i.op ≠ .nzTick) (hdraw : i.op ≠ .nzDraw)
    (s : State) (x : Word) : commandNext i (storeSeed x s) = storeSeed x (commandNext i s) := by
  cases i with
  | nzTick => exact absurd rfl htick
  | nzDraw => exact absurd rfl hdraw
  | smProcess sel => obtain rfl | rfl := sel_of_wf_smProcess hi <;> rfl
  | smReset sel => obtain rfl | rfl := sel_of_wf_smReset hi <;> rfl
  | _ => rfl

theorem commandNext_with_sm0 {i : Instr} (hi : i.wf = true) (hp : i ≠ .smProcess 0) (hr : i ≠ .smReset 0) (s : State)
    (x : Smoother) : commandNext i { s with sm0 := x } = { commandNext i s with sm0 := x } := by
  cases i with
  | smProcess sel =>
    obtain rfl | rfl := sel_of_wf_smProcess hi
    · exact absurd rfl hp
    · rfl
  | smReset sel =>
    obtain rfl | rfl := sel_of_wf_smReset hi
    · exact absurd rfl hr
    · rfl
  | _ => rfl

theorem commandNext_with_sm1 {i : Instr} (hi : i.wf = true) (hp : i ≠ .smProcess 1) (hr : i ≠ .smReset 1) (s : State)
    (x : Smoother) : commandNext i { s with sm1 := x } = { commandNext i s with sm1 := x } := by
  cases i with
  | smProcess sel =>
    obtain rfl | rfl := sel_of_wf_smProcess hi
    · rfl
    · exact absurd rfl hp
  | smReset sel =>
    obtain rfl | rfl := sel_of_wf_smReset hi
    · rfl
    · exact absurd rfl hr
  | _ => rfl

/-- Settles O52. -/
theorem enginesShareNoState : Obligations.EnginesShareNoState := by
  intro i s t hi ht
  obtain rfl := eq_commandNext hi ht
  have run {s' t' : State} (h : commandNext i s' = t') : exec i s' = .next t' := h ▸ exec_eq_commandNext hi s'
  exact ⟨fun h x => run (commandNext_with_sl hi h s x), fun h x => run (commandNext_with_env hi h s x),
    fun h x => run (commandNext_with_nz hi h s x),
    fun htick hdraw x => run (commandNext_with_seed hi htick hdraw s x),
    fun hp hr x => run (commandNext_with_sm0 hi hp hr s x), fun hp hr x => run (commandNext_with_sm1 hi hp hr s x)⟩

end Sys2Proof.Proofs
end

section
/-! SUPPORT. What the host's accesses write and leave alone: RES (O53), STATUS (O55), the host's own registers (O56); and
what a read of every register shows of the state (O58). -/

namespace Sys2Proof.Proofs

open Sys2Proof.Machine Sys2Proof.Safety Sys2Proof.Laws

/-! ## The result registers (10_state.md R36) -/

/-- A command other than NOP writes all four result registers, and reads none. -/
theorem commandNext_with_res {i : Instr} (hi : i.wf = true) (h : i ≠ .nop) (s : State) (q : Quad) :
    commandNext i { s with res := q } = commandNext i s := by
  cases i with
  | nop => exact absurd rfl h
  | smProcess sel => obtain rfl | rfl := sel_of_wf_smProcess hi <;> rfl
  | smReset sel => obtain rfl | rfl := sel_of_wf_smReset hi <;> rfl
  | _ => rfl

theorem writeNext_res (r : Reg) (v : Word) (s : State) : (writeNext r v s).res = s.res := by
  cases r <;> rfl

/-- Settles O53: of the things a step can do, only a command and reset write RES. -/
theorem onlyCommandsWriteResults : Obligations.OnlyCommandsWriteResults := by
  refine ⟨fun i s q hi h => ?_, fun s t h => ?_, fun s t w e rest hp hd h => ?_, fun s t a rest hp hne hcmd h => ?_⟩
  · rw [exec_eq_commandNext hi, exec_eq_commandNext hi, commandNext_with_res hi h]
  · obtain rfl := eq_commandNext rfl h
    rfl
  · have hstep : step s = execute w (storeCmd w (setPending rest s)) := step_write (r := .cmd) rfl hp
    rw [hstep, execute, hd] at h
    obtain rfl := Host.Outcome.next.inj h
    rfl
  · cases step_stepTo h with
    | idle => rfl
    | read => rfl
    | badRead => rfl
    | badWrite => rfl
    | illegalCommand => rfl
    | write => exact writeNext_res _ _ _
    | command hw =>
      rw [hp] at hw
      exact absurd (List.cons.inj hw).1 (hcmd _)
    | reset hr =>
      rw [hp] at hr
      exact absurd (List.cons.inj hr).1 hne

/-! ## STATUS (10_state.md R32) -/

theorem and_or_self_left (x b : Word) : x &&& (x ||| b) = x := by
  ext k
  rw [BitVec.getElem_and, BitVec.getElem_or]
  exact inf_sup_self

theorem writeNext_status {r : Reg} (h : r ≠ .status) (v : Word) (s : State) : (writeNext r v s).status = s.status := by
  cases r with
  | status => exact absurd rfl h
  | _ => rfl

/-- Settles O55: an error sets a bit, and only a write to STATUS or a reset clears one. -/
theorem errorBitsAreSticky : Obligations.ErrorBitsAreSticky := by
  intro s t hreset hstatus h
  cases step_stepTo h with
  | idle => exact BitVec.and_self
  | read => exact BitVec.and_self
  | badRead => simpa using and_or_self_left _ _
  | badWrite => simpa using and_or_self_left _ _
  | illegalCommand => simpa [storeCmd] using and_or_self_left _ _
  | command =>
    rw [(commandNext_keeps_hostSide _ _).status]
    exact BitVec.and_self
  | @write r v rest hw =>
    have hne : r ≠ .status := by
      rintro rfl
      exact hstatus v (by rw [hw]; rfl)
    rw [writeNext_status hne]
    exact BitVec.and_self
  | reset hr => exact absurd (by rw [hr]; rfl) hreset

/-! ## The registers that only the host writes (10_state.md R31, R35, R42) -/

/-- CMD, ARG0 to ARG3 and the configuration registers but NZ_SEED. -/
def hostOwned : Reg → Bool
  | .cmd => true
  | .arg0 => true
  | .arg1 => true
  | .arg2 => true
  | .arg3 => true
  | .cfg n => decide (n ≠ .nzSeed)
  | _ => false

theorem readCfg_with_seed {n : CfgName} (h : n ≠ .nzSeed) (c : CfgRegs) (x : Word) :
    readCfg n { c with nzSeed := x } = readCfg n c := by
  cases n with
  | nzSeed => exact absurd rfl h
  | _ => rfl

theorem readCfg_setCfg (m n : CfgName) (v : Word) (c : CfgRegs) :
    readCfg m (setCfg n v c) = if m = n then v else readCfg m c := by
  cases n <;> cases m <;> rfl

/-- What a host-owned register reads depends on CMD, ARG and the configuration registers but NZ_SEED. -/
theorem readReg_congr_of_hostOwned {s t : State} {r : Reg} (hr : hostOwned r = true) (hcmd : t.cmd = s.cmd)
    (harg : t.arg = s.arg) (hcfg : t.cfg = { s.cfg with nzSeed := t.cfg.nzSeed }) : readReg r t = readReg r s := by
  cases r with
  | cmd => exact hcmd
  | arg0 => exact congrArg Quad.r0 harg
  | arg1 => exact congrArg Quad.r1 harg
  | arg2 => exact congrArg Quad.r2 harg
  | arg3 => exact congrArg Quad.r3 harg
  | cfg n => exact (congrArg (readCfg n) hcfg).trans (readCfg_with_seed (of_decide_eq_true hr) _ _)
  | _ => exact absurd hr nofun

theorem readReg_storeCmd_of_ne {r : Reg} (h : r ≠ .cmd) (w : Word) (s : State) :
    readReg r (storeCmd w s) = readReg r s := by
  cases r with
  | cmd => exact absurd rfl h
  | _ => rfl

/-- A legal write to a register other than CMD changes what that register reads and no other (20_memory.md R82). -/
theorem readReg_writeNext_of_ne {r r' : Reg} (h : r' ≠ r) (v : Word) (s : State) :
    readReg r' (writeNext r v s) = readReg r' s := by
  cases r with
  | status => (cases r' with | status => exact absurd rfl h | _ => rfl)
  | arg0 => (cases r' with | arg0 => exact absurd rfl h | _ => rfl)
  | arg1 => (cases r' with | arg1 => exact absurd rfl h | _ => rfl)
  | arg2 => (cases r' with | arg2 => exact absurd rfl h | _ => rfl)
  | arg3 => (cases r' with | arg3 => exact absurd rfl h | _ => rfl)
  | cfg n =>
    cases r' with
    | cfg m => exact (readCfg_setCfg m n _ s.cfg).trans (if_neg fun hmn => h (congrArg Reg.cfg hmn))
    | _ => rfl
  | _ => rfl

/-- A host-owned register keeps its value through every step but a legal write to it and a reset. -/
theorem step_keeps_hostOwned {s t : State} {r : Reg} (hr : hostOwned r = true) (hreset : s.pending.head? ≠ some .reset)
    (hwrite : ∀ v, s.pending.head? ≠ some (.write (regOffset r) .word v)) (h : step s = .next t) :
    readReg r t = readReg r s := by
  have hne {r' : Reg} {v : Word} {rest : List Access} (hp : s.pending = .write (regOffset r') .word v :: rest) :
      r ≠ r' := by
    rintro rfl
    exact hwrite v (by rw [hp]; rfl)
  cases step_stepTo h with
  | idle => rfl
  | read => exact readReg_congr_of_hostOwned hr rfl rfl rfl
  | badRead => exact readReg_congr_of_hostOwned hr rfl rfl rfl
  | badWrite => exact readReg_congr_of_hostOwned hr rfl rfl rfl
  | @illegalCommand w rest e hp =>
    calc readReg r (raiseIllegalCommand w (storeCmd w (setPending rest s)))
      _ = readReg r (storeCmd w s) := readReg_congr_of_hostOwned hr rfl rfl rfl
      _ = readReg r s := readReg_storeCmd_of_ne (hne hp) w s
  | @command w rest i hp =>
    have hk := commandNext_keeps_hostSide i (storeCmd w (setPending rest s))
    calc readReg r (commandNext i (storeCmd w (setPending rest s)))
      _ = readReg r (storeCmd w s) := readReg_congr_of_hostOwned hr hk.cmd hk.arg hk.cfg
      _ = readReg r s := readReg_storeCmd_of_ne (hne hp) w s
  | @write r' v rest hp =>
    calc readReg r (writeNext r' v (setPending rest s))
      _ = readReg r (setPending rest s) := readReg_writeNext_of_ne (hne hp) v _
      _ = readReg r s := readReg_congr_of_hostOwned hr rfl rfl rfl
  | reset hp => exact absurd (by rw [hp]; rfl) hreset

/-- Settles O56: the registers it names are host-owned. -/
theorem hostRegistersChangeOnlyByTheirWrites : Obligations.HostRegistersChangeOnlyByTheirWrites := by
  intro s t hreset h
  exact ⟨fun hw => step_keeps_hostOwned (r := .cmd) rfl hreset hw h,
    fun hw => step_keeps_hostOwned (r := .arg0) rfl hreset hw h,
    fun hw => step_keeps_hostOwned (r := .arg1) rfl hreset hw h,
    fun hw => step_keeps_hostOwned (r := .arg2) rfl hreset hw h,
    fun hw => step_keeps_hostOwned (r := .arg3) rfl hreset hw h,
    fun n hn hw => step_keeps_hostOwned (r := .cfg n) (decide_eq_true hn) hreset hw h⟩

/-! ## The readback window (10_state.md R30, R63, R64) -/

theorem flagWord_injective {a b : Bool} (h : flagWord a = flagWord b) : a = b := by
  revert a b; decide

theorem stageCode_injective {a b : Stage} (h : stageCode a = stageCode b) : a = b := by
  revert h
  cases a <;> cases b <;> decide

theorem scaleIndex_injective {a b : Scale} (h : BitVec.ofNat 32 (scaleIndex a) = BitVec.ofNat 32 (scaleIndex b)) :
    a = b := by
  have hcode : ∀ sc : Scale, scaleOfIndex (BitVec.ofNat 32 (scaleIndex sc)).toNat = sc := fun sc => by cases sc <;> rfl
  rw [← hcode a, h, hcode b]

/-- Without reserved bits a read of STATUS shows it all (log 12). -/
theorem statusRead_of_lt {x : Word} (h : x.toNat < 4) : statusRead x = x := by
  apply BitVec.eq_of_toNat_eq
  unfold statusRead statusMask
  rw [BitVec.toNat_and]
  exact (Nat.and_two_pow_sub_one_eq_mod x.toNat 2).trans (Nat.mod_eq_of_lt h)

theorem cfg_eq_of_readCfg {c d : CfgRegs} (h : ∀ n, readCfg n c = readCfg n d) : c = d := by
  cases c
  cases d
  rw [CfgRegs.mk.injEq]
  exact ⟨h .sm0Alpha, h .sm0Deadband, h .sm1Alpha, h .sm1Deadband, h .slSmAlpha, h .slSmDeadband, h .slTmaxUs,
    h .slDenomMinUs, h .slFullrangeMv, h .envTminUs, h .envTmaxUs, h .envCvDzMv, h .nzTminUs, h .nzTmaxUs,
    h .nzExtThresh, h .nzPulseUs, h .nzSeed⟩

theorem smoother_eq {m n : Smoother} (hout : m.out = n.out) (hinit : flagWord m.init = flagWord n.init) : m = n := by
  cases m
  cases n
  rw [Smoother.mk.injEq]
  exact ⟨flagWord_injective hinit, hout⟩

/-- The readback registers show the whole of the four engines' state (10_state.md R63). -/
theorem engines_eq_of_readReadback {s t : State} (h : ∀ b, readReadback b s = readReadback b t) :
    s.sm0 = t.sm0 ∧ s.sm1 = t.sm1 ∧ s.sl = t.sl ∧ s.env = t.env ∧ s.nz = t.nz := by
  refine ⟨smoother_eq (h .sm0Out) (h .sm0Init), smoother_eq (h .sm1Out) (h .sm1Init), ?_, ?_, ?_⟩
  · exact (Slew.mk.injEq ..).mpr ⟨h .slCur0, h .slCur1, flagWord_injective (h .slLinked), h .slLastUs,
      smoother_eq (h .slSmaOut) (h .slSmaInit), smoother_eq (h .slSmbOut) (h .slSmbInit)⟩
  · exact (Env.mk.injEq ..).mpr ⟨stageCode_injective (h .envStage), h .envValue, h .envStartUs, h .envDurUs⟩
  · exact (Noise.mk.injEq ..).mpr ⟨h .nzLast0Us, h .nzLast1Us, h .nzCur0, h .nzCur1, scaleIndex_injective (h .nzScale),
      h .nzArmedUntilUs, flagWord_injective (h .nzArmed)⟩

/-- Settles O58: each field of the state is what some register reads. -/
theorem noStateIsHidden : Obligations.NoStateIsHidden := by
  intro s t hs ht hparams hpending hlog h
  have hstatus : s.status = t.status := by
    rw [← statusRead_of_lt hs, ← statusRead_of_lt ht]
    exact h .status
  have harg : s.arg = t.arg := (Quad.mk.injEq ..).mpr ⟨h .arg0, h .arg1, h .arg2, h .arg3⟩
  have hres : s.res = t.res := (Quad.mk.injEq ..).mpr ⟨h .res0, h .res1, h .res2, h .res3⟩
  have hcfg : s.cfg = t.cfg := cfg_eq_of_readCfg fun n => h (.cfg n)
  obtain ⟨hsm0, hsm1, hsl, henv, hnz⟩ := engines_eq_of_readReadback fun b => h (.readback b)
  exact (State.mk.injEq ..).mpr ⟨h .cmd, hstatus, h .errCmd, h .errAddr, harg, hres, hcfg, hsm0, hsm1, hsl, henv, hnz,
    hparams, hpending, hlog⟩

end Sys2Proof.Proofs
end

section
/-! SUPPORT. The register window: what a legal read of each register returns (O8), and what an access that is not legal
records (O9). -/

namespace Sys2Proof.Proofs

open Sys2Proof.Machine Sys2Proof.Safety Sys2Proof.Laws

/-! ## Legal reads (20_memory.md R81, R82) -/

/-! The statements write flags, stages and scales as numbers of their own; they are the model's. -/

theorem bit_eq_flagWord (b : Bool) : bit b = flagWord b := by cases b <;> rfl

theorem stageNumber_eq_stageCode (st : Stage) : stageNumber st = stageCode st := by cases st <;> rfl

theorem scaleNumber_eq_scaleIndex (sc : Scale) : scaleNumber sc = BitVec.ofNat 32 (scaleIndex sc) := by
  cases sc <;> rfl

theorem readbackTable_eq_map (s : State) :
    readbackTable s = readbackNames.map fun b => (readbackOffset b, readReadback b s) := by
  simp only [readbackTable, bit_eq_flagWord, stageNumber_eq_stageCode, scaleNumber_eq_scaleIndex]
  rfl

/-- The map written out from the tables is the model's own. -/
theorem windowTable_eq_map (s : State) : windowTable s = windowRegs.map fun r => (regOffset r, readReg r s) := by
  rw [windowTable, readbackTable_eq_map]
  rfl

@[simp] theorem readReg_setPending (r : Reg) (l : List Access) (s : State) :
    readReg r (setPending l s) = readReg r s := by
  cases r with
  | readback b => cases b <;> rfl
  | _ => rfl

theorem step_legalRead {s : State} {r : Reg} {rest : List Access} (h : s.pending = .read (regOffset r) .word :: rest) :
    step s = .next (returnValue (readReg r s) (setPending rest s)) := by
  rw [step_cons h, performAccess, memRead, readTarget_regOffset]
  simp only [readReg_setPending]

/-- Settles O8: each row of the table is a register's, and a legal read returns that register's value. -/
theorem legalReadReturnsTheRegister : Obligations.LegalReadReturnsTheRegister := by
  intro s rest p hp
  rw [windowTable_eq_map] at hp
  obtain ⟨r, -, rfl⟩ := List.mem_map.mp hp
  have hstep := step_legalRead (s := setPending (.read (regOffset r) .word :: rest) s) rfl
  rw [readReg_setPending] at hstep
  exact hstep

/-! ## Accesses that are not legal (20_memory.md R81, R84, R85) -/

/-- The offsets of the register ranges of 20_memory.md R81. -/
def InMappedRange (off : Offset) : Prop :=
  off.toNat ≤ 0x2C ∨ (0x40 ≤ off.toNat ∧ off.toNat ≤ 0x60) ∨ (0x70 ≤ off.toNat ∧ off.toNat ≤ 0x78) ∨
    (0x80 ≤ off.toNat ∧ off.toNat ≤ 0x90) ∨ (0xA0 ≤ off.toNat ∧ off.toNat ≤ 0xF8)

/-- The offsets of the ranges of writable registers of 20_memory.md R81. -/
def InWritableRange (off : Offset) : Prop :=
  off.toNat ≤ 0x04 ∨ (0x10 ≤ off.toNat ∧ off.toNat ≤ 0x1C) ∨ (0x40 ≤ off.toNat ∧ off.toNat ≤ 0x60) ∨
    (0x70 ≤ off.toNat ∧ off.toNat ≤ 0x78) ∨ (0x80 ≤ off.toNat ∧ off.toNat ≤ 0x90)

theorem cfgOffset_range (n : CfgName) :
    (0x40 ≤ (cfgOffset n).toNat ∧ (cfgOffset n).toNat ≤ 0x60) ∨
      (0x70 ≤ (cfgOffset n).toNat ∧ (cfgOffset n).toNat ≤ 0x78) ∨
      (0x80 ≤ (cfgOffset n).toNat ∧ (cfgOffset n).toNat ≤ 0x90) := by
  cases n <;> decide

theorem readbackOffset_range (b : Readback) : 0xA0 ≤ (readbackOffset b).toNat ∧ (readbackOffset b).toNat ≤ 0xF8 := by
  cases b <;> decide

theorem regOffset_inMappedRange (r : Reg) : InMappedRange (regOffset r) := by
  cases r with
  | cfg n =>
    rcases cfgOffset_range n with h | h | h
    · exact .inr (.inl h)
    · exact .inr (.inr (.inl h))
    · exact .inr (.inr (.inr (.inl h)))
  | readback b => exact .inr (.inr (.inr (.inr (readbackOffset_range b))))
  | _ => exact .inl (by decide)

theorem regOffset_inWritableRange {r : Reg} (h : readOnly r = false) : InWritableRange (regOffset r) := by
  cases r with
  | cfg n => exact .inr (.inr (cfgOffset_range n))
  | cmd => exact .inl (by decide)
  | status => exact .inl (by decide)
  | arg0 => exact .inr (.inl (by decide))
  | arg1 => exact .inr (.inl (by decide))
  | arg2 => exact .inr (.inl (by decide))
  | arg3 => exact .inr (.inl (by decide))
  | _ => exact absurd h nofun

theorem size_eq_word_of_alignedWord {off : Offset} {n : Size} (h : alignedWord off n = true) : n = .word := by
  cases n with
  | word => rfl
  | byte => simp [alignedWord, sizeBytes] at h
  | half => simp [alignedWord, sizeBytes] at h

theorem readTarget_eq_none {off : Offset} {n : Size} (h : ¬ (n = .word ∧ off.toNat % 4 = 0 ∧ InMappedRange off)) :
    readTarget off n = none := by
  refine Option.eq_none_iff_forall_ne_some.mpr fun r hr => h ?_
  obtain ⟨hal, hat⟩ := readTarget_some.mp hr
  obtain rfl := regOffset_of_regAt hat
  exact ⟨size_eq_word_of_alignedWord hal, regOffset_aligned r, regOffset_inMappedRange r⟩

theorem writeTarget_eq_none {off : Offset} {n : Size} (h : ¬ (n = .word ∧ off.toNat % 4 = 0 ∧ InWritableRange off)) :
    writeTarget off n = none := by
  refine Option.eq_none_iff_forall_ne_some.mpr fun r hr => h ?_
  obtain ⟨rfl, hn, hro⟩ := writeTarget_some hr
  exact ⟨hn, regOffset_aligned r, regOffset_inWritableRange hro⟩

/-- The whole record of a bad access (60_exceptions.md R292). -/
theorem raiseBadAccess_eq (off : Offset) (s : State) :
    raiseBadAccess off s = { s with status := s.status ||| 2, errAddr := off.setWidth 32 } := by
  rw [← statusSet_badAccess]
  rfl

theorem step_badRead {s : State} {off : Offset} {n : Size} {rest : List Access} (h : s.pending = .read off n :: rest)
    (hr : readTarget off n = none) : step s = .next (returnValue 0 (raiseBadAccess off (setPending rest s))) := by
  rw [step_cons h, performAccess, memRead, hr]

theorem step_badWrite {s : State} {off : Offset} {n : Size} {v : Word} {rest : List Access}
    (h : s.pending = .write off n v :: rest) (hw : writeTarget off n = none) :
    step s = .next (raiseBadAccess off (setPending rest s)) := by
  rw [step_cons h, performAccess, memWrite, hw]

/-- Settles O9: only a word access inside the ranges reaches a register, and any other access is a bad access. -/
theorem illegalAccessIsRecorded : Obligations.IllegalAccessIsRecorded := by
  intro s off n v rest
  refine ⟨fun h => ?_, fun h => ?_⟩
  · rw [step_badRead rfl (readTarget_eq_none h), raiseBadAccess_eq]
    rfl
  · rw [step_badWrite rfl (writeTarget_eq_none h), raiseBadAccess_eq]
    rfl

end Sys2Proof.Proofs
end

section
/-! SUPPORT. The encoding of the commands: the decoder accepts a word by its fields, and the fields of a command's word
are the command's (O1, O2, O3, O4, O15); and the packed operands (O29). -/

namespace Sys2Proof.Proofs

open Sys2Proof.Machine Sys2Proof.Safety Sys2Proof.Laws

/-! ## The fields of a word (30_encoding.md R111) -/

/-- A word is its five fields. -/
theorem word_ext {v w : Word} (hop : opField v = opField w) (hsel : selField v = selField w)
    (hbit : reservedBit11 v = reservedBit11 w) (hflags : flagsField v = flagsField w)
    (hhigh : reservedHigh v = reservedHigh w) : v = w := by
  replace hop := congrArg BitVec.toNat hop
  replace hsel := congrArg BitVec.toNat hsel
  replace hbit := congrArg Bool.toNat hbit
  replace hflags := congrArg BitVec.toNat hflags
  replace hhigh := congrArg BitVec.toNat hhigh
  simp only [opField, selField, reservedBit11, flagsField, reservedHigh, BitVec.extractLsb'_toNat, BitVec.getLsbD,
    Nat.toNat_testBit, Nat.shiftRight_eq_div_pow] at hop hsel hbit hflags hhigh
  exact BitVec.eq_of_toNat_eq (by omega)

theorem wordFields (i : Instr) : WordFields.Statement i := by
  cases i with
  | nop => exact WordFields.nop
  | clamp => exact WordFields.clamp
  | mulq15 => exact WordFields.mulq15
  | blendq15 => exact WordFields.blendq15
  | u8toq15 => exact WordFields.u8toq15
  | smProcess sel => exact WordFields.smProcess sel
  | smReset sel => exact WordFields.smReset sel
  | slStep toggleLink => exact WordFields.slStep toggleLink
  | envTick trig cvmod => exact WordFields.envTick trig cvmod
  | nzTick clk hold => exact WordFields.nzTick clk hold
  | nzDraw => exact WordFields.nzDraw
  | nzQuant sel => exact WordFields.nzQuant sel

/-! ## Rows and commands (30_encoding.md R112 to R114) -/

theorem opOfCode_code (o : Op) : opOfCode o.code = some o := by cases o <;> rfl

theorem code_of_opOfCode {c : BitVec 8} {o : Op} (h : opOfCode c = some o) : o.code = c := by
  simpa using List.find?_some h

theorem code_injective {o o' : Op} (h : o.code = o'.code) : o = o' := by
  have hc := opOfCode_code o
  rw [h, opOfCode_code] at hc
  exact (Option.some.inj hc).symm

/-- A command sets no flag outside its row's FLAGMASK. -/
theorem flagBits_allowed (i : Instr) : i.flagBits &&& ~~~ i.op.flagMask = 0 := by
  cases i with
  | slStep toggleLink => cases toggleLink <;> rfl
  | envTick trig cvmod => cases trig <;> cases cvmod <;> rfl
  | nzTick clk hold => cases clk <;> cases hold <;> rfl
  | _ => exact BitVec.zero_and

theorem instrOf_fields (i : Instr) : instrOf i.op i.selBits i.flagBits = i := by
  cases i with
  | slStep toggleLink => cases toggleLink <;> rfl
  | envTick trig cvmod => cases trig <;> cases cvmod <;> rfl
  | nzTick clk hold => cases clk <;> cases hold <;> rfl
  | _ => rfl

@[simp] theorem op_instrOf (o : Op) (sel : Sel) (flags : FlagBits) : (instrOf o sel flags).op = o := by
  cases o <;> rfl

theorem selBits_instrOf {o : Op} {sel : Sel} (h : sel.toNat ≤ o.selMax) (flags : FlagBits) :
    (instrOf o sel flags).selBits = sel := by
  cases o with
  | smProcess => rfl
  | smReset => rfl
  | nzQuant => rfl
  | _ => exact (BitVec.eq_of_toNat_eq (Nat.le_zero.mp h)).symm

/-- The three FLAGMASKs of the table: what a FLAGS field within each is, by its event flags. -/
theorem flags_of_allowed (flags : FlagBits) :
    (flags &&& ~~~ 0x0 = 0 → 0 = flags) ∧
    (flags &&& ~~~ 0x1 = 0 → eventFlags (flags.getLsbD 0) false = flags) ∧
    (flags &&& ~~~ 0x3 = 0 → eventFlags (flags.getLsbD 0) (flags.getLsbD 1) = flags) := by
  revert flags; decide

theorem flagBits_instrOf {o : Op} {flags : FlagBits} (h : flags &&& ~~~ o.flagMask = 0) (sel : Sel) :
    (instrOf o sel flags).flagBits = flags := by
  have ⟨hnone, hone, htwo⟩ := flags_of_allowed flags
  cases o with
  | slStep => exact hone h
  | envTick => exact htwo h
  | nzTick => exact htwo h
  | _ => exact hnone h

/-! ## The words the decoder accepts (30_encoding.md R110) -/

/-- The word is a legal command of row `o`, field by field: the tests of `decode`, passed (`decode_of_legalFields`,
`legalFields_of_decode`). -/
structure LegalFields (o : Op) (w : Word) : Prop where
  op : opField w = o.code
  sel : (selField w).toNat ≤ o.selMax
  bit11 : reservedBit11 w = false
  flags : flagsField w &&& ~~~ o.flagMask = 0
  high : reservedHigh w = 0

theorem decode_of_legalFields {o : Op} {w : Word} (h : LegalFields o w) :
    decode w = .ok (instrOf o (selField w) (flagsField w)) := by
  simp [decode, h.high, h.bit11, h.op, opOfCode_code, Nat.not_lt.mpr h.sel, h.flags]

theorem legalFields_of_decode {w : Word} {i : Instr} (h : decode w = .ok i) :
    ∃ o, LegalFields o w ∧ instrOf o (selField w) (flagsField w) = i := by
  unfold decode at h
  split at h
  · simp at h
  · next hres =>
    obtain ⟨hhigh, hbit⟩ := not_or.mp hres
    split at h
    · simp at h
    · next o ho =>
      split at h
      · simp at h
      · next hsel =>
        split at h
        · simp at h
        · next hflags =>
          exact ⟨o, ⟨(code_of_opOfCode ho).symm, Nat.not_lt.mp hsel, Bool.eq_false_iff.mpr hbit, not_not.mp hflags,
            not_not.mp hhigh⟩, Except.ok.inj h⟩

theorem legalFields_encode {i : Instr} (h : i.wf = true) : LegalFields i.op (encode i) := by
  obtain ⟨hop, hsel, hflags, hbit, hhigh⟩ := wordFields i
  exact ⟨hop, hsel ▸ wf_sel_le h, hbit, hflags ▸ flagBits_allowed i, hhigh⟩

theorem encode_instrOf {o : Op} {w : Word} (h : LegalFields o w) :
    encode (instrOf o (selField w) (flagsField w)) = w := by
  obtain ⟨hop, hsel, hflags, hbit, hhigh⟩ := wordFields (instrOf o (selField w) (flagsField w))
  rw [op_instrOf] at hop
  rw [selBits_instrOf h.sel] at hsel
  rw [flagBits_instrOf h.flags] at hflags
  exact word_ext (hop.trans h.op.symm) hsel (hbit.trans h.bit11.symm) hflags (hhigh.trans h.high.symm)

/-- Settles O1: the word's fields are the command's, and they are legal. -/
theorem decodeInvertsEncode : Obligations.DecodeInvertsEncode := by
  intro i hi
  obtain ⟨-, hsel, hflags, -, -⟩ := wordFields i
  rw [decode_of_legalFields (legalFields_encode hi), hsel, hflags, instrOf_fields]

/-- Settles O2: the word and the word of its command agree in every field. -/
theorem encodeInvertsDecode : Obligations.EncodeInvertsDecode := by
  intro w i h
  obtain ⟨o, hf, rfl⟩ := legalFields_of_decode h
  exact ⟨wf_of_decode h, encode_instrOf hf⟩

/-! ## The match and mask columns (30_encoding.md R112) -/

theorem opField_and_mask (o : Op) (w : Word) : opField (w &&& o.mask) = opField w := by
  have hmask : opField o.mask = BitVec.allOnes 8 := by cases o <;> rfl
  calc opField (w &&& o.mask)
    _ = opField w &&& opField o.mask := BitVec.extractLsb'_and
    _ = opField w := by rw [hmask, BitVec.and_allOnes]

theorem reservedHigh_and_mask (o : Op) (w : Word) : reservedHigh (w &&& o.mask) = reservedHigh w := by
  have hmask : reservedHigh o.mask = BitVec.allOnes 16 := by cases o <;> rfl
  calc reservedHigh (w &&& o.mask)
    _ = reservedHigh w &&& reservedHigh o.mask := BitVec.extractLsb'_and
    _ = reservedHigh w := by rw [hmask, BitVec.and_allOnes]

theorem reservedBit11_and_mask (o : Op) (w : Word) : reservedBit11 (w &&& o.mask) = reservedBit11 w := by
  have hmask : reservedBit11 o.mask = true := by cases o <;> rfl
  calc reservedBit11 (w &&& o.mask)
    _ = (reservedBit11 w && reservedBit11 o.mask) := BitVec.getLsbD_and
    _ = reservedBit11 w := by rw [hmask, Bool.and_true]

theorem flagsField_and_mask (o : Op) (w : Word) : flagsField (w &&& o.mask) = flagsField w &&& ~~~ o.flagMask := by
  have hmask : flagsField o.mask = ~~~ o.flagMask := by cases o <;> rfl
  exact hmask ▸ BitVec.extractLsb'_and

theorem selField_and_mask (o : Op) (w : Word) : selField (w &&& o.mask) = selField w &&& selField o.mask :=
  BitVec.extractLsb'_and

/-- The match column has the row's OP and 0 elsewhere. -/
theorem pattern_fields (o : Op) :
    opField o.pattern = o.code ∧ selField o.pattern = 0 ∧ reservedBit11 o.pattern = false ∧
      flagsField o.pattern = 0 ∧ reservedHigh o.pattern = 0 := by
  cases o <;> decide

/-- The mask column leaves SEL free up to SELMAX, except that NZ.QUANT's also lets 6 and 7 pass: its bound is a test of
its own. -/
theorem sel_le_selMax_iff (o : Op) (sel : Sel) :
    sel.toNat ≤ o.selMax ↔ sel &&& selField o.mask = 0 ∧ (o = .nzQuant → sel.toNat ≤ 5) := by
  revert sel
  cases o <;> decide

theorem opField_of_match {o : Op} {w : Word} (h : w &&& o.mask = o.pattern) : opField w = o.code := by
  obtain ⟨hop, -⟩ := pattern_fields o
  rw [← opField_and_mask o w, h, hop]

theorem legalFields_iff_match (o : Op) (w : Word) :
    LegalFields o w ↔ w &&& o.mask = o.pattern ∧ (o = .nzQuant → (selField w).toNat ≤ 5) := by
  obtain ⟨hop, hsel, hbit, hflags, hhigh⟩ := pattern_fields o
  constructor
  · intro h
    obtain ⟨hselMask, hquant⟩ := (sel_le_selMax_iff o _).mp h.sel
    refine ⟨word_ext ?_ ?_ ?_ ?_ ?_, hquant⟩
    · rw [opField_and_mask, h.op, hop]
    · rw [selField_and_mask, hselMask, hsel]
    · rw [reservedBit11_and_mask, h.bit11, hbit]
    · rw [flagsField_and_mask, h.flags, hflags]
    · rw [reservedHigh_and_mask, h.high, hhigh]
  · rintro ⟨hm, hquant⟩
    refine ⟨opField_of_match hm, (sel_le_selMax_iff o _).mpr ⟨?_, hquant⟩, ?_, ?_, ?_⟩
    · rw [← selField_and_mask, hm, hsel]
    · rw [← reservedBit11_and_mask o, hm, hbit]
    · rw [← flagsField_and_mask, hm, hflags]
    · rw [← reservedHigh_and_mask o, hm, hhigh]

theorem exists_decode_iff (o : Op) (w : Word) : (∃ i, decode w = .ok i ∧ i.op = o) ↔ LegalFields o w := by
  constructor
  · rintro ⟨i, hd, rfl⟩
    obtain ⟨o, hf, rfl⟩ := legalFields_of_decode hd
    rwa [op_instrOf]
  · exact fun h => ⟨_, decode_of_legalFields h, op_instrOf _ _ _⟩

/-- Settles O3: the rows written out are the model's columns, and a word's row is the one of its OP. -/
theorem legalWordsMatchOneRow : Obligations.LegalWordsMatchOneRow := by
  refine ⟨fun row hrow w => ?_, fun w o o' ⟨hm, _⟩ ⟨hm', _⟩ => ?_⟩
  · obtain ⟨o, -, rfl⟩ : ∃ o ∈ Op.all, (o, o.pattern, o.mask) = row := List.mem_map.mp hrow
    exact (exists_decode_iff o w).trans (legalFields_iff_match o w)
  · exact code_injective ((opField_of_match hm).symm.trans (opField_of_match hm'))

/-! ## NOP (30_encoding.md R121), and words written out -/

theorem eq_nop_of_op {i : Instr} (h : i.op = .nop) : i = .nop := by
  cases i with
  | nop => rfl
  | _ => exact absurd h nofun

/-- Settles O15: a legal word with OP 0x00 is the word of NOP. -/
theorem nopChangesNothing : Obligations.NopChangesNothing := by
  refine ⟨fun w hop => ⟨fun hok => ?_, ?_⟩, decodeInvertsEncode .nop rfl, fun _ => rfl⟩
  · cases hd : decode w with
    | error e => simp [hd, Except.isOk, Except.toBool] at hok
    | ok i =>
      obtain ⟨-, rfl⟩ := encodeInvertsDecode w i hd
      obtain ⟨hcode, -⟩ := wordFields i
      rw [eq_nop_of_op (code_injective (hcode.symm.trans hop))]
      rfl
  · rintro rfl
    rfl

/-- Settles O4: the legal words are the words of their commands; the others fail one test of the decoder each. -/
theorem tableWordsDecode : Obligations.TableWordsDecode :=
  ⟨decodeInvertsEncode .nop rfl, decodeInvertsEncode .blendq15 rfl, decodeInvertsEncode (.smProcess 1) rfl,
    decodeInvertsEncode (.smReset 1) rfl, decodeInvertsEncode (.slStep true) rfl,
    decodeInvertsEncode (.envTick false true) rfl, decodeInvertsEncode (.nzTick true false) rfl,
    decodeInvertsEncode (.nzQuant 5) rfl, rfl, rfl, rfl, rfl, rfl⟩

/-! ## Packed operands (30_encoding.md R116, R120) -/

theorem byteLane_pack_zero (x y z : Word) : byteLane (pack x y z) 0 = byteLane x 0 := by
  ext k hk
  have h16 : k < 16 := by omega
  have h32 : k < 32 := by omega
  simp [byteLane, pack, hk, h16, h32]

theorem byteLane_pack_one (x y z : Word) : byteLane (pack x y z) 1 = byteLane y 0 := by
  ext k hk
  have h16 : 8 + k < 16 := by omega
  have h32 : k < 32 ∧ 8 + k < 32 := by omega
  simp [byteLane, pack, hk, h16, h32]

theorem byteLane_pack_two (x y z : Word) : byteLane (pack x y z) 2 = byteLane z 0 := by
  ext k hk
  have hx : ¬ 16 + k < 8 := by omega
  have hy : ¬ 16 + k - 8 < 8 := by omega
  have h32 : k < 32 ∧ 16 + k < 32 := by omega
  simp [byteLane, pack, hk, hx, hy, h32]

theorem lowHalf_pack16 (x y : Word) : (pack16 x y).extractLsb' 0 16 = x.extractLsb' 0 16 := by
  ext k hk
  have h32 : k < 32 := by omega
  simp [pack16, hk, h32]

theorem highHalf_pack16 (x y : Word) : (pack16 x y).extractLsb' 16 16 = y.extractLsb' 0 16 := by
  ext k hk
  have h32 : k < 32 ∧ 16 + k < 32 := by omega
  simp [pack16, hk, h32]

/-- Settles O29: each lane of a packed operand is the low lane of the word packed there. -/
theorem packedPotsReadBack : Obligations.PackedPotsReadBack := by
  refine ⟨fun x y z => ⟨?_, ?_, ?_⟩, fun x y => ⟨?_, ?_⟩⟩
  · rw [pot0, byteLane_pack_zero]
    exact pot0_eq x
  · rw [pot1, byteLane_pack_one]
    exact pot0_eq y
  · rw [pot2, byteLane_pack_two]
    exact pot0_eq z
  · rw [rawLow, lowHalf_pack16]
    exact rawLow_eq x
  · rw [rawHigh, highHalf_pack16]
    exact rawLow_eq y

end Sys2Proof.Proofs
end

section
/-! SUPPORT. What an illegal command records (O6, O22), and that every access completes (O57). -/

namespace Sys2Proof.Proofs

open Sys2Proof.Machine Sys2Proof.Safety Sys2Proof.Laws

/-! ## Illegal commands (30_encoding.md R117) -/

/-- The whole record of an illegal command (60_exceptions.md R291). -/
theorem raiseIllegalCommand_eq (w : Word) (s : State) :
    raiseIllegalCommand w s = { s with status := s.status ||| 1, errCmd := w } := by
  rw [← statusSet_illegalCmd]
  rfl

theorem step_commandWrite {s : State} {w : Word} {rest : List Access}
    (h : s.pending = .write (regOffset .cmd) .word w :: rest) :
    step s = execute w (storeCmd w (setPending rest s)) :=
  step_write (r := .cmd) rfl h

/-- Settles O6. -/
theorem illegalWordIsRecorded : Obligations.IllegalWordIsRecorded := by
  intro s w e rest hp hd
  rw [step_commandWrite hp, execute, hd, raiseIllegalCommand_eq]
  rfl

theorem assembleWord_noFlags (op : BitVec 8) (sel : Sel) :
    assembleWord op sel 0 = op.setWidth 32 ||| (sel.setWidth 32 <<< 8) := by
  simp [assembleWord]

theorem encode_smProcess (sel : Sel) : encode (.smProcess sel) = 0x10 ||| (sel.setWidth 32 <<< 8) :=
  assembleWord_noFlags 0x10 sel

theorem encode_smReset (sel : Sel) : encode (.smReset sel) = 0x11 ||| (sel.setWidth 32 <<< 8) :=
  assembleWord_noFlags 0x11 sel

theorem encode_nzQuant (sel : Sel) : encode (.nzQuant sel) = 0x42 ||| (sel.setWidth 32 <<< 8) :=
  assembleWord_noFlags 0x42 sel

/-- Settles O22: a term with SEL out of range records its word, which has the row's OP and no flag. -/
theorem selOutOfRangeIsIllegal : Obligations.SelOutOfRangeIsIllegal := by
  intro s sel
  refine ⟨fun h => ⟨?_, ?_⟩, fun h => ?_⟩
  · rw [exec_smProcess_illegal h, raiseIllegalCommand_eq, encode_smProcess]
  · rw [exec_smReset_illegal h, raiseIllegalCommand_eq, encode_smReset]
  · rw [exec_nzQuant_illegal h, raiseIllegalCommand_eq, encode_nzQuant]

/-! ## Completion (30_encoding.md R110) -/

theorem execute_next (w : Word) (s : State) : ∃ t, execute w s = .next t := by
  rcases execute_cases w s with ⟨-, he⟩ | ⟨i, hd, he⟩
  · exact ⟨_, he⟩
  · exact ⟨_, he.trans (exec_eq_commandNext (wf_of_decode hd) s)⟩

theorem memWrite_next (off : Offset) (n : Size) (v : Word) (s : State) : ∃ t, memWrite off n v s = .next t := by
  unfold memWrite
  split
  · next r _ =>
    by_cases hr : r = .cmd
    · subst hr
      exact execute_next v (storeCmd v s)
    · exact ⟨_, writeReg_eq_writeNext hr v s⟩
  · exact ⟨_, rfl⟩

theorem step_next (s : State) : ∃ t, step s = .next t := by
  rcases performNext_cases s with ⟨-, he⟩ | ⟨a, rest, -, he⟩
  · exact ⟨s, he⟩
  · cases a with
    | read off n => exact ⟨_, he⟩
    | write off n v =>
      obtain ⟨t, ht⟩ := memWrite_next off n v (setPending rest s)
      exact ⟨t, he.trans ht⟩
    | reset => exact ⟨_, he⟩

theorem writeNext_pending (r : Reg) (v : Word) (s : State) : (writeNext r v s).pending = s.pending := by
  cases r <;> rfl

theorem writeNext_params (r : Reg) (v : Word) (s : State) : (writeNext r v s).params = s.params := by
  cases r <;> rfl

theorem stepTo_pending {s t : State} (h : StepTo s t) : t.pending = s.pending.tail := by
  cases h with
  | idle hp => rw [hp]; rfl
  | read hp => rw [hp]; rfl
  | badRead hp => rw [hp]; rfl
  | badWrite hp => rw [hp]; rfl
  | illegalCommand hp => rw [hp]; rfl
  | command hp => rw [hp, (commandNext_keeps_hostSide _ _).pending]; rfl
  | write hp => rw [hp, writeNext_pending]; rfl
  | reset hp => rw [hp]; rfl

theorem stepTo_params {s t : State} (h : StepTo s t) : t.params = s.params := by
  cases h with
  | command => exact (commandNext_keeps_hostSide _ _).params
  | write => exact writeNext_params _ _ _
  | _ => rfl

/-- Settles O57: a next state exists, and each thing a step can do takes the access off the list and keeps the
parameters. -/
theorem everyAccessCompletes : Obligations.EveryAccessCompletes := by
  intro s
  obtain ⟨t, ht⟩ := step_next s
  exact ⟨t, ht, stepTo_pending (step_stepTo ht), stepTo_params (step_stepTo ht)⟩

end Sys2Proof.Proofs
end

section
/-! SUPPORT. The kernel commands and the functions that the engines share with them: Q15 products and blends (O16 to O19,
O30 to O32), the pot curve (O33, O34), and time across the counter's wrap (O35). -/

namespace Sys2Proof.Proofs

open Sys2Proof.Machine Sys2Proof.Safety Sys2Proof.Laws

/-! ## Division toward zero (40_kernel.md R148) -/

theorem tdiv_mono {a b : Int} (h : a ≤ b) : tdiv a 32768 ≤ tdiv b 32768 := Int.tdiv_le_tdiv (by decide) h

@[simp] theorem tdiv_mul_self (v : Int) : tdiv (v * 32768) 32768 = v := Int.mul_tdiv_cancel v (by decide)

/-! ## mulQ15 (40_kernel.md R142, R149) -/

@[simp] theorem mulQ15_one_right (v : Int) : mulQ15 v 32768 = v := tdiv_mul_self v

theorem mulQ15_comm (v g : Int) : mulQ15 v g = mulQ15 g v := by rw [mulQ15, mulQ15, mul_comm]

@[simp] theorem mulQ15_one_left (g : Int) : mulQ15 32768 g = g := by rw [mulQ15_comm, mulQ15_one_right]

@[simp] theorem mulQ15_zero_right (v : Int) : mulQ15 v 0 = 0 := by rw [mulQ15, mul_zero]; rfl

theorem mulQ15_mono {v v' g g' : Int} (hv : v ≤ v') (hg : g ≤ g') (hv' : 0 ≤ v') (hg0 : 0 ≤ g) :
    mulQ15 v g ≤ mulQ15 v' g' :=
  tdiv_mono (mul_le_mul hv hg hg0 hv')

/-- Settles O31: both halves are what truncation does to the magnitude and the sign of a quotient. -/
theorem mulQ15TruncatesTowardZero : Obligations.MulQ15TruncatesTowardZero := by
  refine fun v g => ⟨Int.natAbs_tdiv _ _, fun hne => ?_⟩
  have hsign : (mulQ15 v g).sign = if (v * g).natAbs < 32768 then 0 else (v * g).sign * Int.sign 32768 :=
    Int.sign_tdiv _ _
  split at hsign
  · exact absurd (Int.sign_eq_zero_iff_zero.mp hsign) hne
  · rw [hsign, Int.sign_mul]
    exact mul_one _

/-! ## blendQ15 (40_kernel.md R143, R149) -/

@[simp] theorem blendQ15_zero (a b : Int) : blendQ15 a b 0 = a := by simp [blendQ15]

@[simp] theorem blendQ15_one (a b : Int) : blendQ15 a b 32768 = b := by simp [blendQ15]

/-- Settles O30. -/
theorem q15Identities : Obligations.Q15Identities :=
  ⟨mulQ15_one_left, mulQ15_one_right, blendQ15_zero, blendQ15_one⟩

/-- The blend of two values of lo..hi with t in 0..32768 stays in lo..hi: so does the exact blend, and truncation is
monotonic. -/
theorem blendQ15_between {a b t lo hi : Int} (ha : lo ≤ a ∧ a ≤ hi) (hb : lo ≤ b ∧ b ≤ hi) (ht0 : 0 ≤ t)
    (ht1 : t ≤ 32768) : lo ≤ blendQ15 a b t ∧ blendQ15 a b t ≤ hi := by
  have ht1' : 0 ≤ 32768 - t := by omega
  constructor
  · calc lo = blendQ15 lo lo t := by rw [blendQ15, ← mul_add, sub_add_cancel, tdiv_mul_self]
      _ ≤ blendQ15 a b t :=
        tdiv_mono (add_le_add (mul_le_mul_of_nonneg_right ha.1 ht1') (mul_le_mul_of_nonneg_right hb.1 ht0))
  · calc blendQ15 a b t ≤ blendQ15 hi hi t :=
        tdiv_mono (add_le_add (mul_le_mul_of_nonneg_right ha.2 ht1') (mul_le_mul_of_nonneg_right hb.2 ht0))
      _ = hi := by rw [blendQ15, ← mul_add, sub_add_cancel, tdiv_mul_self]

/-! ## u8ToQ15 (40_kernel.md R144) -/

/-- Saturation is the rounding formula on v clamped to 0..255. -/
theorem u8ToQ15_eq (v : Int) : u8ToQ15 v = (max 0 (min v 255) * 32768 + 127) / 255 := by
  unfold u8ToQ15 floorDiv
  split
  · omega
  · split <;> omega

theorem u8ToQ15_of_nonpos {v : Int} (h : v ≤ 0) : u8ToQ15 v = 0 := if_pos h

theorem u8ToQ15_of_full {v : Int} (h : 255 ≤ v) : u8ToQ15 v = 32768 := by
  rw [u8ToQ15_eq]
  omega

theorem u8ToQ15_nearest {v : Int} (h0 : 0 ≤ v) (h1 : v ≤ 255) : 2 * (255 * u8ToQ15 v - 32768 * v).natAbs < 255 := by
  rw [u8ToQ15_eq]
  omega

theorem u8ToQ15_mono {v v' : Int} (h : v ≤ v') : u8ToQ15 v ≤ u8ToQ15 v' := by
  rw [u8ToQ15_eq, u8ToQ15_eq]
  omega

/-! ## The pot curve (40_kernel.md R145, R146) -/

theorem potCurve_zero : potCurve 0 = 0 := rfl

theorem potCurve_full : potCurve 255 = 32768 := rfl

theorem potCurve_mono {p p' : Int} (h : p ≤ p') : potCurve p ≤ potCurve p' := by
  obtain ⟨hq0, hq1⟩ := u8ToQ15_range p
  obtain ⟨hq0', hq1'⟩ := u8ToQ15_range p'
  have hq := u8ToQ15_mono h
  have hsq := mulQ15_mono hq hq hq0' hq0
  exact mulQ15_mono hsq hq (mulQ15_range hq0' hq0' hq1').1 hq0

/-- Settles O33: each of the curve's three steps is monotonic. -/
theorem potCurveRisesFromZeroToOne : Obligations.PotCurveRisesFromZeroToOne :=
  ⟨fun _ _ _ => rfl, potCurve_zero, potCurve_full, fun _ _ _ h _ => potCurve_mono h⟩

/-- Settles O34: the part added to tmin lies between 0 and tmax - tmin. -/
theorem potDurationLiesBetweenItsEnds : Obligations.PotDurationLiesBetweenItsEnds := by
  refine fun tmin tmax => ⟨?_, ?_, fun p => ⟨rfl, ?_⟩⟩
  · rw [potDuration, potCurve_zero, mulQ15_zero_right, add_zero]
  · rw [potDuration, potCurve_full, mulQ15_one_right, add_sub_cancel]
  · obtain ⟨hc0, hc1⟩ := potCurve_range p
    obtain ⟨hrise, hfall⟩ := mulQ15_toward_zero (v := tmax - tmin) hc0 hc1
    unfold potDuration
    rcases le_total tmin tmax with h | h
    · obtain ⟨hlow, hhigh⟩ := hrise (sub_nonneg.mpr h)
      omega
    · obtain ⟨hlow, hhigh⟩ := hfall (sub_nonpos.mpr h)
      omega

/-! ## Time (40_kernel.md R147; 70_reset_and_hazards.md R322) -/

/-- The difference of two readings of the wrapping counter is the true difference, narrowed. -/
theorem clockReading_sub (t t0 : Nat) : clockReading t - clockReading t0 = u32 ((t : Int) - t0) := by
  rw [sub_eq_iff_eq_add, clockReading, clockReading, u32, ← BitVec.ofInt_natCast, ← BitVec.ofInt_natCast,
    ← BitVec.ofInt_add, sub_add_cancel]

/-- Settles O35: under each duty the true difference is in the range that its reading recovers. -/
theorem timeArithmeticSurvivesWrap : Obligations.TimeArithmeticSurvivesWrap := by
  refine ⟨fun t0 t ⟨hle, hlt⟩ => ?_, fun d t ⟨hahead, hpassed⟩ => ?_⟩
  · rw [elapsed, clockReading_sub, unsigned_u32 (by omega) (by omega)]
  · rw [isActive, decide_eq_true_iff, clockReading_sub, s32_u32 (by omega) (by omega)]
    omega

/-! ## The commands (40_kernel.md R150 to R153) -/

theorem u32_clamp_s32 (v lo hi : Word) :
    u32 (clamp (s32 v) (s32 lo) (s32 hi)) = if s32 v < s32 lo then lo else if s32 hi < s32 v then hi else v := by
  simp only [clamp, apply_ite u32, u32_s32]

/-- Settles O16. -/
theorem clampWritesTheClampedValue : Obligations.ClampWritesTheClampedValue := by
  refine ⟨decodeInvertsEncode .clamp rfl, fun s => ?_⟩
  calc exec .clamp s
    _ = .next (writeRes (u32 (clamp (sArg0 s) (sArg1 s) (sArg2 s))) 0 0 0 s) := exec_eq_commandNext rfl s
    _ = _ := by rw [sArg0, sArg1, sArg2, u32_clamp_s32]; rfl

/-- Settles O17. -/
theorem mulq15WritesTheTruncatedProduct : Obligations.Mulq15WritesTheTruncatedProduct :=
  ⟨decodeInvertsEncode .mulq15 rfl, exec_eq_commandNext (i := .mulq15) rfl⟩

/-- Settles O18. -/
theorem blendq15WritesTheBlend : Obligations.Blendq15WritesTheBlend :=
  ⟨decodeInvertsEncode .blendq15 rfl, exec_eq_commandNext (i := .blendq15) rfl⟩

/-- Settles O19: the value saturates below 0 and above 255, and is rounded between. -/
theorem u8toq15RoundsToNearest : Obligations.U8toq15RoundsToNearest :=
  ⟨decodeInvertsEncode .u8toq15 rfl, fun s => ⟨u8ToQ15 (sArg0 s), exec_eq_commandNext (i := .u8toq15) rfl s,
    u8ToQ15_of_nonpos, u8ToQ15_of_full, u8ToQ15_nearest⟩⟩

/-- Settles O32: the blend lies between its ends, which fit 32 bits, so the narrowing keeps it. -/
theorem blendStaysBetweenItsEnds : Obligations.BlendStaysBetweenItsEnds := by
  intro s t h0 h1 hexec
  rw [eq_commandNext (i := .blendq15) rfl hexec]
  obtain ⟨hmin, hmax⟩ := blendQ15_between (a := sArg0 s) (b := sArg1 s)
    ⟨min_le_left _ _, le_max_left _ _⟩ ⟨min_le_right _ _, le_max_right _ _⟩ h0 h1
  have hlo := le_min (s32_lower s.arg.r0) (s32_lower s.arg.r1)
  have hhi := max_lt (s32_upper s.arg.r0) (s32_upper s.arg.r1)
  have hread : s32 (commandNext .blendq15 s).res.r0 = blendQ15 (sArg0 s) (sArg1 s) (sArg2 s) :=
    s32_u32 (hlo.trans hmin) (hmax.trans_lt hhi)
  exact ⟨hmin.trans_eq hread.symm, hread.trans_le hmax⟩

end Sys2Proof.Proofs
end

section
/-! SUPPORT. The voltage smoother: one call by its cases, the bound and the progress of its step (O36, O37, O38), and the
two commands that run it (O20, O21). -/

namespace Sys2Proof.Proofs

open Sys2Proof.Machine Sys2Proof.Safety Sys2Proof.Laws

/-! ## The step (41_smoother.md R170 to R172) -/

theorem smootherStep_of_mulQ15_ne_zero {d alpha : Int} (h : mulQ15 d alpha ≠ 0) :
    smootherStep d alpha = mulQ15 d alpha := if_neg h

theorem smootherStep_of_mulQ15_eq_zero {d alpha : Int} (h : mulQ15 d alpha = 0) : smootherStep d alpha = d.sign :=
  if_pos h

@[simp] theorem smootherStep_zero (alpha : Int) : smootherStep 0 alpha = 0 := by
  rw [smootherStep_of_mulQ15_eq_zero (by rw [mulQ15_comm, mulQ15_zero_right]), Int.sign_zero]

/-- The output after a step lies between where it was and the target. -/
theorem add_smootherStep_between {a b alpha : Int} (h0 : 0 ≤ alpha) (h1 : alpha ≤ 32768) :
    min a b ≤ a + smootherStep (b - a) alpha ∧ a + smootherStep (b - a) alpha ≤ max a b := by
  obtain ⟨hup, hdown⟩ := smootherStep_toward (d := b - a) h0 h1
  rcases lt_trichotomy a b with hlt | rfl | hgt
  · have := hup (by omega); omega
  · simp
  · have := hdown (by omega); omega

/-- Between two 32-bit values the narrowing changes nothing. -/
theorem s32_u32_add_smootherStep (p q : Word) {alpha : Int} (h0 : 0 ≤ alpha) (h1 : alpha ≤ 32768) :
    s32 (u32 (s32 p + smootherStep (s32 q - s32 p) alpha)) = s32 p + smootherStep (s32 q - s32 p) alpha := by
  obtain ⟨hmin, hmax⟩ := add_smootherStep_between (a := s32 p) (b := s32 q) h0 h1
  exact s32_u32 ((le_min (s32_lower p) (s32_lower q)).trans hmin)
    (hmax.trans_lt (max_lt (s32_upper p) (s32_upper q)))

/-! ## One call (41_smoother.md R170) -/

theorem smootherProcess_first {m : Smoother} (h : m.init = false) (target alpha deadband : Int) :
    smootherProcess m target alpha deadband = { init := true, out := u32 target } := by
  simp [smootherProcess, h]

theorem smootherProcess_held {m : Smoother} {target deadband : Int} (h : m.init = true)
    (hd : absInt (target - s32 m.out) ≤ deadband) (alpha : Int) : smootherProcess m target alpha deadband = m := by
  simp [smootherProcess, h, hd]

theorem smootherProcess_moved {m : Smoother} {target deadband : Int} (h : m.init = true)
    (hd : deadband < absInt (target - s32 m.out)) (alpha : Int) :
    smootherProcess m target alpha deadband =
      { init := true, out := u32 (s32 m.out + smootherStep (target - s32 m.out) alpha) } := by
  simp [smootherProcess, h, Int.not_le.mpr hd]

theorem smootherProcess_init (m : Smoother) (target alpha deadband : Int) :
    (smootherProcess m target alpha deadband).init = true := by
  rcases smootherProcess_cases m target alpha deadband with ⟨-, he⟩ | ⟨hm, -, he⟩ | ⟨-, -, he⟩
  · rw [he]
  · rw [he, hm]
  · rw [he]

/-- Settles O36: the range between the output and the target holds both, so a call stays in it. -/
theorem smootherNeverOvershoots : Obligations.SmootherNeverOvershoots := by
  intro m target alpha deadband _ h0 h1
  obtain ⟨hlo, hhi⟩ := smootherProcess_range (m := m) (target := s32 target) (deadband := deadband)
    (le_min (s32_lower m.out) (s32_lower target)) (max_lt (s32_upper m.out) (s32_upper target))
    ⟨min_le_left _ _, le_max_left _ _⟩ ⟨min_le_right _ _, le_max_right _ _⟩ h0 h1
  exact ⟨hlo, hhi, s32_u32_add_smootherStep m.out target h0 h1⟩

section
variable {m : Smoother} {target : Word} {alpha deadband : Int}

/-- Outside the deadband the output read back is the exact sum. -/
theorem s32_smootherProcess_moved (hm : m.init = true) (h0 : 0 ≤ alpha) (h1 : alpha ≤ 32768)
    (hd : deadband < absInt (s32 target - s32 m.out)) :
    s32 (smootherProcess m (s32 target) alpha deadband).out =
      s32 m.out + smootherStep (s32 target - s32 m.out) alpha := by
  rw [smootherProcess_moved hm hd]
  exact s32_u32_add_smootherStep m.out target h0 h1

/-- Outside the deadband a call brings the output at least 1 nearer to the target (41_smoother.md R172). -/
theorem smootherProcess_nearer (hm : m.init = true) (h0 : 0 ≤ alpha) (h1 : alpha ≤ 32768) (hdb : 0 ≤ deadband)
    (hd : deadband < absInt (s32 target - s32 m.out)) :
    absInt (s32 target - s32 (smootherProcess m (s32 target) alpha deadband).out) + 1 ≤
      absInt (s32 target - s32 m.out) := by
  obtain ⟨hup, hdown⟩ := smootherStep_toward (d := s32 target - s32 m.out) h0 h1
  rw [s32_smootherProcess_moved hm h0 h1 hd]
  simp only [absInt] at hd ⊢
  rcases lt_or_ge 0 (s32 target - s32 m.out) with hpos | hneg
  · have := hup hpos; omega
  · have := hdown (by omega); omega

/-- Outside the deadband the distance to the target shrinks, so the state is another (41_smoother.md R173). -/
theorem smootherProcess_eq_self_iff (hm : m.init = true) (h0 : 0 ≤ alpha) (h1 : alpha ≤ 32768) (hdb : 0 ≤ deadband) :
    smootherProcess m (s32 target) alpha deadband = m ↔ absInt (s32 target - s32 m.out) ≤ deadband := by
  refine ⟨fun heq => ?_, fun hd => smootherProcess_held hm hd alpha⟩
  by_contra hd
  have hnear := smootherProcess_nearer hm h0 h1 hdb (Int.not_le.mp hd)
  rw [heq] at hnear
  omega

/-- A call takes 1 off any bound on the way left to the deadband. -/
theorem smootherProcess_wayLeft (hm : m.init = true) (h0 : 0 ≤ alpha) (h1 : alpha ≤ 32768) (hdb : 0 ≤ deadband) {k : Nat}
    (hk : absInt (s32 target - s32 m.out) - deadband ≤ (k + 1 : Nat)) :
    absInt (s32 target - s32 (smootherProcess m (s32 target) alpha deadband).out) - deadband ≤ k := by
  rcases le_or_gt (absInt (s32 target - s32 m.out)) deadband with hd | hd
  · rw [smootherProcess_held hm hd]; omega
  · have := smootherProcess_nearer hm h0 h1 hdb hd; omega

theorem smootherProcess_iterate_within (h0 : 0 ≤ alpha) (h1 : alpha ≤ 32768) (hdb : 0 ≤ deadband) (k : Nat)
    (hm : m.init = true) (hk : absInt (s32 target - s32 m.out) - deadband ≤ k) :
    absInt (s32 target - s32 ((smootherProcess · (s32 target) alpha deadband)^[k] m).out) ≤ deadband := by
  induction k generalizing m with
  | zero => simpa using hk
  | succ k ih =>
    rw [Function.iterate_succ_apply]
    exact ih (smootherProcess_init _ _ _ _) (smootherProcess_wayLeft hm h0 h1 hdb hk)

end

/-- Settles O37: a call that is not held brings the output nearer, so it changes the state. -/
theorem smootherIsHeldInsideTheDeadband : Obligations.SmootherIsHeldInsideTheDeadband :=
  fun _ _ _ _ => smootherProcess_eq_self_iff

/-- Settles O38: each call takes at least 1 off the way left, so k calls use up a bound k on it. -/
theorem smootherReachesTheDeadband : Obligations.SmootherReachesTheDeadband := by
  refine fun m target alpha deadband hm h0 h1 hdb => ⟨fun hd hzero => ?_, fun hd => ?_, fun k hk => ?_⟩
  · have hstep : smootherStep (s32 target - s32 m.out) alpha = _ := smootherStep_of_mulQ15_eq_zero hzero
    exact (s32_smootherProcess_moved hm h0 h1 hd).trans (congrArg _ hstep)
  · exact Int.ofNat_le.mp (smootherProcess_nearer hm h0 h1 hdb hd)
  · exact smootherProcess_iterate_within h0 h1 hdb k hm hk

/-! ## The commands (41_smoother.md R175, R176) -/

/-- The word of a term whose SEL is above its row's SELMAX is illegal (30_encoding.md R113). -/
theorem decode_encode_of_not_wf {i : Instr} (h : i.wf = false) : (decode (encode i)).isOk = false := by
  cases hd : decode (encode i) with
  | error e => rfl
  | ok j =>
    obtain ⟨o, hf, -⟩ := legalFields_of_decode hd
    obtain ⟨hop, hsel, -⟩ := wordFields i
    obtain rfl := code_injective (hf.op.symm.trans hop)
    exact absurd (hsel ▸ hf.sel) (Nat.not_le.mpr (not_wf_sel_lt h))

theorem smootherCall_smootherProcess (m : Smoother) (target alpha deadband : Int) :
    SmootherCall m (smootherProcess m target alpha deadband) target alpha deadband := by
  refine ⟨fun hm => smootherProcess_first hm _ _ _, fun hm hd => smootherProcess_held hm hd _,
    fun hm hd hne => ?_, fun hm hd hzero => ?_⟩
  · have hstep : smootherStep (target - s32 m.out) alpha = _ := smootherStep_of_mulQ15_ne_zero hne
    rw [smootherProcess_moved hm hd, hstep]; rfl
  · have hstep : smootherStep (target - s32 m.out) alpha = _ := smootherStep_of_mulQ15_eq_zero hzero
    rw [smootherProcess_moved hm hd, hstep]; rfl

/-- Settles O20: the selected instance takes one call, whose cases are those of `SmootherCall`. -/
theorem smProcessCallsTheSelectedSmoother : Obligations.SmProcessCallsTheSelectedSmoother := by
  refine ⟨fun n => ⟨fun h => ?_, fun h => ?_⟩, fun s => ⟨?_, ?_⟩⟩
  · rw [← encode_smProcess]
    exact decodeInvertsEncode (.smProcess n) (decide_eq_true h)
  · rw [← encode_smProcess]
    exact decode_encode_of_not_wf (decide_eq_false (Nat.not_le.mpr h))
  · exact ⟨_, exec_smProcess_legal (by decide) s, smootherCall_smootherProcess s.sm0 _ _ _⟩
  · exact ⟨_, exec_smProcess_legal (by decide) s, smootherCall_smootherProcess s.sm1 _ _ _⟩

/-- Settles O21: ARG0 read signed and narrowed again is ARG0. -/
theorem smResetSetsTheSelectedSmoother : Obligations.SmResetSetsTheSelectedSmoother := by
  refine ⟨fun n => ⟨fun h => ?_, fun h => ?_⟩, fun s => ⟨?_, ?_⟩⟩
  · rw [← encode_smReset]
    exact decodeInvertsEncode (.smReset n) (decide_eq_true h)
  · rw [← encode_smReset]
    exact decode_encode_of_not_wf (decide_eq_false (Nat.not_le.mpr h))
  · rw [exec_smReset_legal (by decide), smootherReset, writeResult, sArg0, u32_s32]; rfl
  · rw [exec_smReset_legal (by decide), smootherReset, writeResult, sArg0, u32_s32]; rfl

end Sys2Proof.Proofs
end

section
/-! SUPPORT. The slew limiter: the words of SL.STEP and the whole move of a step (O23), how far one channel's turn goes
toward its target (O39), and how many turns bring it there (O40, O41). -/

namespace Sys2Proof.Proofs

open Sys2Proof.Machine Sys2Proof.Safety Sys2Proof.Laws

/-! ## Which assembled words are legal (30_encoding.md R110, R111) -/

theorem isOk_decode_iff (w : Word) : (decode w).isOk = true ↔ ∃ o, LegalFields o w := by
  constructor
  · intro hok
    cases hd : decode w with
    | error e => rw [hd] at hok; exact absurd hok nofun
    | ok i =>
      obtain ⟨o, hf, -⟩ := legalFields_of_decode hd
      exact ⟨o, hf⟩
  · rintro ⟨o, hf⟩
    rw [decode_of_legalFields hf]
    rfl

section
variable (op : BitVec 8) (sel : Sel) (flags : FlagBits)

theorem opField_assembleWord : opField (assembleWord op sel flags) = op := by
  ext k hk
  have h32 : k < 12 ∧ k < 32 := by omega
  simp [opField, assembleWord, hk, h32]

theorem selField_assembleWord : selField (assembleWord op sel flags) = sel := by
  ext k hk
  have h32 : 8 + k < 12 ∧ k < 32 ∧ 8 + k < 32 := by omega
  simp [selField, assembleWord, hk, h32]

theorem flagsField_assembleWord : flagsField (assembleWord op sel flags) = flags := by
  ext k hk
  have h32 : k < 32 ∧ 12 + k < 32 := by omega
  have hop : op.getLsbD (12 + k) = false := BitVec.getLsbD_of_ge _ _ (by omega)
  have hsel : sel.getLsbD (12 + k - 8) = false := BitVec.getLsbD_of_ge _ _ (by omega)
  simp [flagsField, assembleWord, hk, h32, hop, hsel]

theorem reservedBit11_assembleWord : reservedBit11 (assembleWord op sel flags) = false := by
  simp [reservedBit11, assembleWord]

theorem reservedHigh_assembleWord : reservedHigh (assembleWord op sel flags) = 0 := by
  ext k hk
  have hop : op.getLsbD (16 + k) = false := BitVec.getLsbD_of_ge _ _ (by omega)
  have hsel : sel.getLsbD (16 + k - 8) = false := BitVec.getLsbD_of_ge _ _ (by omega)
  have hflags : flags.getLsbD (16 + k - 12) = false := BitVec.getLsbD_of_ge _ _ (by omega)
  simp [reservedHigh, assembleWord, hop, hsel, hflags]

end

/-- A word with a row's OP is legal exactly when its SEL and FLAGS are within the row's SELMAX and FLAGMASK
(30_encoding.md R112 to R114). -/
theorem isOk_decode_assembleWord (o : Op) (sel : Sel) (flags : FlagBits) :
    (decode (assembleWord o.code sel flags)).isOk = true ↔ sel.toNat ≤ o.selMax ∧ flags &&& ~~~ o.flagMask = 0 := by
  rw [isOk_decode_iff]
  constructor
  · rintro ⟨o', hop, hsel, -, hflags, -⟩
    rw [opField_assembleWord] at hop
    rw [selField_assembleWord] at hsel
    rw [flagsField_assembleWord] at hflags
    obtain rfl := code_injective hop
    exact ⟨hsel, hflags⟩
  · rintro ⟨hsel, hflags⟩
    exact ⟨o, opField_assembleWord _ _ _, (selField_assembleWord _ _ _).symm ▸ hsel, reservedBit11_assembleWord _ _ _,
      (flagsField_assembleWord _ _ _).symm ▸ hflags, reservedHigh_assembleWord _ _ _⟩

theorem sel_flags_slStep_iff (sel : Sel) (flags : FlagBits) :
    (sel.toNat ≤ Op.slStep.selMax ∧ flags &&& ~~~ Op.slStep.flagMask = 0) ↔ sel = 0 ∧ flags.toNat ≤ 1 := by
  revert sel flags; decide

/-! ## One channel's move (42_slew.md R194 to R198) -/

theorem slewTarget_eq (arg : Word) : slewTarget arg = max (-5000) (min arg.toInt 5000) := clamp_eq_max_min (by decide)

/-- The coefficient of a channel at distance d from its target, in a step of the whole engine (42_slew.md R192, R193,
R196). -/
def slewCoeffOf (toggleLink : Bool) (s : State) (d : Int) : Int :=
  slewCoeff s.cfg (elapsed s.arg.r2 s.sl.last)
    (slewRate d (slewRiseQ s.arg.r3) (slewFallQ (slewLinked toggleLink s.sl) s.arg.r3))

/-- The move of a channel at distance d from its target, in a step of the whole engine (42_slew.md R197). -/
def slewMove (toggleLink : Bool) (s : State) (d : Int) : Int :=
  slewStep s.cfg d (slewCoeffOf toggleLink s d) (slewShapeQ s.arg.r3)

section
variable {toggleLink : Bool} {s : State} {arg cur : Word}

theorem slewChannelOf_onTarget (h : slewTarget arg - s32 cur = 0) : slewChannelOf toggleLink s arg cur = cur := if_pos h

theorem slewChannelOf_moved (h : slewTarget arg - s32 cur ≠ 0) :
    slewChannelOf toggleLink s arg cur = u32 (s32 cur + slewMove toggleLink s (slewTarget arg - s32 cur)) := if_neg h

end

theorem slewCoeffOf_range (toggleLink : Bool) (s : State) (d : Int) :
    0 ≤ slewCoeffOf toggleLink s d ∧ slewCoeffOf toggleLink s d ≤ 32768 := by
  obtain ⟨hr0, hr1⟩ := slewRate_range (diff := d) (potCurve_range (pot0 s.arg.r3))
    (slewFallQ_range (slewLinked toggleLink s.sl) s.arg.r3)
  exact slewCoeff_range s.cfg (elapsed_nonneg _ _) hr0 hr1

/-- The move goes at least 1 mV toward the target and not past it. -/
theorem slewMove_toward (toggleLink : Bool) (s : State) (d : Int) :
    (0 < d → 1 ≤ slewMove toggleLink s d ∧ slewMove toggleLink s d ≤ d) ∧
    (d < 0 → d ≤ slewMove toggleLink s d ∧ slewMove toggleLink s d ≤ -1) := by
  obtain ⟨hc0, hc1⟩ := slewCoeffOf_range toggleLink s d
  obtain ⟨hs0, hs1⟩ := u8ToQ15_range (pot2 s.arg.r3)
  exact slewStep_toward s.cfg hc0 hc1 hs0 hs1

/-- Everything a channel's value can do in a step: rest on its target, or come nearer to it from below or from above
without passing it. Between the old value and the target the narrowing to 32 bits changes nothing. -/
theorem slewChannelOf_toward (toggleLink : Bool) (s : State) (arg cur : Word) :
    (s32 cur = slewTarget arg ∧ s32 (slewChannelOf toggleLink s arg cur) = slewTarget arg) ∨
    (s32 cur < s32 (slewChannelOf toggleLink s arg cur) ∧ s32 (slewChannelOf toggleLink s arg cur) ≤ slewTarget arg) ∨
    (slewTarget arg ≤ s32 (slewChannelOf toggleLink s arg cur) ∧ s32 (slewChannelOf toggleLink s arg cur) < s32 cur) := by
  obtain ⟨hup, hdown⟩ := slewMove_toward toggleLink s (slewTarget arg - s32 cur)
  obtain ⟨htlo, hthi⟩ := slewTarget_range arg
  have hlo := s32_lower cur
  have hhi := s32_upper cur
  rcases lt_trichotomy (s32 cur) (slewTarget arg) with hlt | heq | hgt
  · have := hup (by omega)
    rw [slewChannelOf_moved (by omega), s32_u32 (by omega) (by omega)]
    exact .inr (.inl (by omega))
  · rw [slewChannelOf_onTarget (by omega)]
    exact .inl ⟨heq, heq⟩
  · have := hdown (by omega)
    rw [slewChannelOf_moved (by omega), s32_u32 (by omega) (by omega)]
    exact .inr (.inr (by omega))

/-! ## The step never overshoots (42_slew.md R198) -/

/-- What SL.STEP makes of the operands and of the two channels. -/
theorem exec_slStep_channels {toggleLink : Bool} {s t : State} (h : exec (.slStep toggleLink) s = .next t) :
    t.arg = s.arg ∧ t.sl.cur0 = slewChannelOf toggleLink s s.arg.r0 s.sl.cur0 ∧
      t.sl.cur1 = slewChannelOf toggleLink s s.arg.r1 s.sl.cur1 := by
  obtain rfl : t = storeSlew (slewNext toggleLink s) s := eq_commandNext rfl h
  exact ⟨rfl, rfl, rfl⟩

/-- Settles O39: by whether the channel rests, rises or falls; each says on which side of the old value the new one and
the target lie. -/
theorem slewMovesTowardItsTarget : Obligations.SlewMovesTowardItsTarget := by
  intro s t toggleLink hexec
  obtain ⟨-, hcur0, hcur1⟩ := exec_slStep_channels hexec
  rintro ⟨arg, cur, next⟩ hch
  obtain rfl : next = slewChannelOf toggleLink s arg cur := by
    simp only [List.mem_cons, List.not_mem_nil, or_false, Prod.mk.injEq] at hch
    rcases hch with ⟨rfl, rfl, rfl⟩ | ⟨rfl, rfl, rfl⟩
    · exact hcur0
    · exact hcur1
  intro target old new
  have htarget : slewTarget arg = target := slewTarget_eq arg
  obtain ⟨htlo, hthi⟩ : -5000 ≤ target ∧ target ≤ 5000 := htarget ▸ slewTarget_range arg
  have htoward : (old = target ∧ new = target) ∨ (old < new ∧ new ≤ target) ∨ (target ≤ new ∧ new < old) :=
    htarget ▸ slewChannelOf_toward toggleLink s arg cur
  refine ⟨by omega, ?_, by omega, by omega⟩
  rcases htoward with ⟨hold, hnew⟩ | ⟨hlo, hhi⟩ | ⟨hlo, hhi⟩
  · rw [hold, hnew]
  · rw [Int.sign_eq_one_of_pos (by omega), Int.sign_eq_one_of_pos (by omega)]
  · rw [Int.sign_eq_neg_one_of_neg (by omega), Int.sign_eq_neg_one_of_neg (by omega)]

/-! ## Runs of steps (42_slew.md R201) -/

/-- A channel's value along a run of steps with one target, whatever the rest of the machine holds at each. -/
def SlewRun (arg : Word) (cur : Nat → Word) : Prop :=
  ∀ k, ∃ (toggleLink : Bool) (s : State), cur (k + 1) = slewChannelOf toggleLink s arg (cur k)

theorem slewRun_wayLeft {arg : Word} {cur : Nat → Word} (h : SlewRun arg cur) (n : Nat) :
    (slewTarget arg - s32 (cur n)).natAbs ≤ (slewTarget arg - s32 (cur 0)).natAbs - n := by
  induction n with
  | zero => exact le_rfl
  | succ n ih =>
    obtain ⟨toggleLink, s, he⟩ := h n
    have htoward := slewChannelOf_toward toggleLink s arg (cur n)
    rw [he]
    omega

theorem slewRun_reaches {arg : Word} {cur : Nat → Word} (h : SlewRun arg cur) {n : Nat}
    (hn : (slewTarget arg - s32 (cur 0)).natAbs ≤ n) : s32 (cur n) = slewTarget arg := by
  have := slewRun_wayLeft h n
  omega

/-- Settles O40: no step changes the targets, so each channel makes a run of its own. -/
theorem slewReachesItsTarget : Obligations.SlewReachesItsTarget := by
  intro σ hσ n
  have hargs : ∀ k, (σ k).arg.r0 = (σ 0).arg.r0 ∧ (σ k).arg.r1 = (σ 0).arg.r1 := by
    intro k
    induction k with
    | zero => exact ⟨rfl, rfl⟩
    | succ k ih =>
      obtain ⟨now, pots, toggleLink, hexec⟩ := hσ k
      rw [(exec_slStep_channels hexec).1]
      exact ih
  have hA : SlewRun (σ 0).arg.r0 fun k => (σ k).sl.cur0 := by
    intro k
    obtain ⟨now, pots, toggleLink, hexec⟩ := hσ k
    obtain ⟨-, hcur0, -⟩ := exec_slStep_channels hexec
    exact ⟨toggleLink, _, (hargs k).1 ▸ hcur0⟩
  have hB : SlewRun (σ 0).arg.r1 fun k => (σ k).sl.cur1 := by
    intro k
    obtain ⟨now, pots, toggleLink, hexec⟩ := hσ k
    obtain ⟨-, -, hcur1⟩ := exec_slStep_channels hexec
    exact ⟨toggleLink, _, (hargs k).2 ▸ hcur1⟩
  rw [← slewTarget_eq, ← slewTarget_eq]
  exact ⟨slewRun_reaches hA, slewRun_reaches hB⟩

/-! ## The rate of a channel's pots (42_slew.md R193, R195) -/

/-- The pot that governs a channel: the rise pot when it rises or the channels are linked, else the fall pot. -/
theorem slewRate_eq_potCurve (d : Int) (linked : Bool) (arg3 : Word) :
    slewRate d (slewRiseQ arg3) (slewFallQ linked arg3) =
      potCurve ((if 0 < d ∨ linked = true then arg3.toNat % 256 else arg3.toNat / 256 % 256 : Nat) : Int) := by
  by_cases hd : 0 < d
  · simp [slewRate, hd, slewRiseQ, pot0_eq]
  · cases linked with
    | true => simp [slewRate, slewFallQ, slewRiseQ, pot0_eq]
    | false => simp [slewRate, slewFallQ, hd, pot1_eq]

/-! ## Immediate tracking (42_slew.md R196, R197) -/

theorem slewCoeff_rate_zero (cfg : CfgRegs) (el : Int) : slewCoeff cfg el 0 = 32768 := by
  simp [slewCoeff, slewDenom]

theorem slewCoeffOf_pots_zero (toggleLink : Bool) {s : State} (d : Int) (h : s.arg.r3.toNat % 65536 = 0) :
    slewCoeffOf toggleLink s d = 32768 := by
  have hrise : s.arg.r3.toNat % 256 = 0 := by omega
  have hfall : s.arg.r3.toNat / 256 % 256 = 0 := by omega
  rw [slewCoeffOf, slewRate_eq_potCurve, hrise, hfall, ite_self]
  exact slewCoeff_rate_zero _ _

@[simp] theorem blendQ15_self (v t : Int) : blendQ15 v v t = v := by
  rw [blendQ15, ← mul_add, sub_add_cancel, tdiv_mul_self]

/-- With coefficient one and a full range that covers the distance, both moves are the whole distance, and so is their
blend. -/
theorem slewStep_full {cfg : CfgRegs} {d : Int} (h : absInt d ≤ cfgVal cfg.slFullrangeMv) (shapeQ : Int) :
    slewStep cfg d 32768 shapeQ = d := by
  have hlin : slewLinStep cfg d 32768 = d := by
    rw [slewLinStep, mulQ15_one_right, min_eq_right h]
    exact Int.sign_mul_natAbs d
  have hblend : slewBlend cfg d 32768 shapeQ = d := by rw [slewBlend, hlin, mulQ15_one_right, blendQ15_self]
  rw [slewStep, hblend]
  split
  · next hd => rw [hd]; rfl
  · rfl

theorem slewChannelOf_pots_zero (toggleLink : Bool) {s : State} (arg : Word) {cur : Word}
    (hcur : -5000 ≤ s32 cur ∧ s32 cur ≤ 5000) (hfull : 10000 ≤ s.cfg.slFullrangeMv.toNat)
    (hpots : s.arg.r3.toNat % 65536 = 0) : s32 (slewChannelOf toggleLink s arg cur) = slewTarget arg := by
  obtain ⟨htlo, hthi⟩ := slewTarget_range arg
  by_cases hd : slewTarget arg - s32 cur = 0
  · rw [slewChannelOf_onTarget hd]
    omega
  · have hcovers : absInt (slewTarget arg - s32 cur) ≤ cfgVal s.cfg.slFullrangeMv := by
      simp only [absInt, cfgVal, unsigned]
      omega
    rw [slewChannelOf_moved hd, slewMove, slewCoeffOf_pots_zero _ _ hpots, slewStep_full hcovers,
      s32_u32 (by omega) (by omega)]
    omega

/-- Settles O41. -/
theorem slewPotZeroTracksAtOnce : Obligations.SlewPotZeroTracksAtOnce := by
  rintro s t toggleLink ⟨hlegal0, hlegal1, _⟩ hfull hpots hexec
  obtain ⟨-, hcur0, hcur1⟩ := exec_slStep_channels hexec
  rw [hcur0, hcur1, ← slewTarget_eq, ← slewTarget_eq]
  exact ⟨slewChannelOf_pots_zero toggleLink _ hlegal0 hfull hpots,
    slewChannelOf_pots_zero toggleLink _ hlegal1 hfull hpots⟩

/-! ## SL.STEP (42_slew.md R191 to R200) -/

theorem slewLinked_eq_xor (toggleLink : Bool) (sl : Slew) : slewLinked toggleLink sl = (sl.linked ^^ toggleLink) := by
  cases toggleLink <;> simp [slewLinked]

theorem slewStep_of_slewBlend_ne_zero {cfg : CfgRegs} {d coeff shapeQ : Int} (h : slewBlend cfg d coeff shapeQ ≠ 0) :
    slewStep cfg d coeff shapeQ = slewBlend cfg d coeff shapeQ := if_neg h

theorem slewStep_of_slewBlend_eq_zero {cfg : CfgRegs} {d coeff shapeQ : Int} (h : slewBlend cfg d coeff shapeQ = 0) :
    slewStep cfg d coeff shapeQ = d.sign := if_pos h

theorem smootherCall_slewOutput (cfg : CfgRegs) (m : Smoother) (cur : Word) :
    SmootherCall m (slewOutput cfg m cur) (max 0 (min (s32 cur + 5000) 10000)) (cfgVal cfg.slSmAlpha)
      (cfgVal cfg.slSmDeadband) := by
  rw [slewOutput, clamp_eq_max_min (by decide)]
  exact smootherCall_smootherProcess _ _ _ _

/-- Settles O23: a channel's move is the blend or the forced step, and its output smoother takes one call. -/
theorem slStepMovesBothChannels : Obligations.SlStepMovesBothChannels := by
  refine ⟨decodeInvertsEncode (.slStep false) rfl, decodeInvertsEncode (.slStep true) rfl,
    fun sel flags => (isOk_decode_assembleWord .slStep sel flags).trans (sel_flags_slStep_iff sel flags),
    fun s toggleLink => ⟨slewNext toggleLink s, rfl, slewLinked_eq_xor _ _, rfl, ?_⟩⟩
  rintro ⟨arg, cur, new, m, m'⟩ hch
  obtain ⟨rfl, rfl⟩ : new = slewChannelOf toggleLink s arg cur ∧ m' = slewOutput s.cfg m new := by
    simp only [List.mem_cons, List.not_mem_nil, or_false, Prod.mk.injEq] at hch
    rcases hch with ⟨rfl, rfl, rfl, rfl, rfl⟩ | ⟨rfl, rfl, rfl, rfl, rfl⟩
    · exact ⟨rfl, rfl⟩
    · exact ⟨rfl, rfl⟩
  intro diff pot denom el coeff lin step
  have hdiff : slewTarget arg - s32 cur = diff := by rw [slewTarget_eq]; rfl
  have hcoeff : slewCoeffOf toggleLink s diff = coeff := by rw [slewCoeffOf, slewRate_eq_potCurve]; rfl
  have hshape : slewShapeQ s.arg.r3 = u8ToQ15 (s.arg.r3.toNat / 65536 % 256) := by
    rw [slewShapeQ, pot2_eq]; push_cast; rfl
  have hstep : slewBlend s.cfg diff (slewCoeffOf toggleLink s diff) (slewShapeQ s.arg.r3) = step := by
    rw [hcoeff, hshape]; rfl
  refine ⟨fun h => slewChannelOf_onTarget (hdiff.trans h), fun h hne => ?_, fun h hzero => ?_,
    smootherCall_slewOutput s.cfg m _⟩
  · rw [slewChannelOf_moved (hdiff.trans_ne h), hdiff, slewMove, slewStep_of_slewBlend_ne_zero (hstep.trans_ne hne), hstep]
    rfl
  · rw [slewChannelOf_moved (hdiff.trans_ne h), hdiff, slewMove, slewStep_of_slewBlend_eq_zero (hstep.trans hzero)]
    rfl

end Sys2Proof.Proofs
end

section
/-! SUPPORT. The envelope: the modulation of the attack time by CV (O43), each row of the stage table as an equation of
the tick (O24), and the end-of-cycle flag (O42). -/

namespace Sys2Proof.Proofs

open Sys2Proof.Machine Sys2Proof.Safety Sys2Proof.Laws

/-! ## CV modulation (43_envelope.md R223; 90_conflicts.md C4) -/

section
variable {cfg : CfgRegs} {cv : Int} (hdz : cfgVal cfg.envCvDzMv ≤ 4999) (base : Int)
include hdz

theorem cvModulate_within (h : absInt cv ≤ cfgVal cfg.envCvDzMv) :
    cvModulate cfg base cv = clamp base (cfgVal cfg.envTminUs) (cfgVal cfg.envTmaxUs) := by
  unfold absInt at h
  rw [cvModulate, clamp_eq_max_min (v := cv) (by decide), if_neg (by omega), if_neg (by omega)]

theorem cvModulate_above (h : cfgVal cfg.envCvDzMv < cv) :
    cvModulate cfg base cv =
      clamp (base - tdiv (mulQ15 base (cvFrac (min cv.natAbs 5000 : Nat) (cfgVal cfg.envCvDzMv))) 2)
        (cfgVal cfg.envTminUs) (cfgVal cfg.envTmaxUs) := by
  have hdz0 : 0 ≤ cfgVal cfg.envCvDzMv := unsigned_nonneg _
  have hmag : max (-5000) (min cv 5000) = (min cv.natAbs 5000 : Nat) := by omega
  rw [cvModulate, clamp_eq_max_min (v := cv) (by decide), hmag, if_pos (by omega)]

theorem cvModulate_below (h : cv < -cfgVal cfg.envCvDzMv) :
    cvModulate cfg base cv =
      clamp (base + mulQ15 base (cvFrac (min cv.natAbs 5000 : Nat) (cfgVal cfg.envCvDzMv)))
        (cfgVal cfg.envTminUs) (cfgVal cfg.envTmaxUs) := by
  have hdz0 : 0 ≤ cfgVal cfg.envCvDzMv := unsigned_nonneg _
  have hmag : -max (-5000) (min cv 5000) = (min cv.natAbs 5000 : Nat) := by omega
  rw [cvModulate, clamp_eq_max_min (v := cv) (by decide), hmag, if_neg (by omega), if_pos (by omega)]

end

/-- At 5 V and beyond the whole modulation range applies. -/
theorem cvFrac_full {mag : Nat} {dz : Int} (hdz : dz ≤ 4999) (h : 5000 ≤ mag) :
    cvFrac (min mag 5000 : Nat) dz = 32768 := by
  rw [min_eq_right h]
  exact Int.mul_ediv_cancel_left 32768 (by omega)

theorem cvModulate_range {cfg : CfgRegs} (h : cfgVal cfg.envTminUs ≤ cfgVal cfg.envTmaxUs) (base cv : Int) :
    cfgVal cfg.envTminUs ≤ cvModulate cfg base cv ∧ cvModulate cfg base cv ≤ cfgVal cfg.envTmaxUs :=
  clamp_range h _

/-- Settles O43: at ±5 V and beyond `frac` is the Q15 one, so the product is `base` itself. -/
theorem cvHalvesAndDoublesAttack : Obligations.CvHalvesAndDoublesAttack := by
  intro cfg base cv hlegal
  have hdz : cfgVal cfg.envCvDzMv ≤ 4999 := Int.ofNat_le.mpr hlegal
  refine ⟨cvModulate_within hdz base, cvModulate_above hdz base, cvModulate_below hdz base, fun h => ?_, fun h => ?_,
    fun h => cvModulate_range h base cv⟩
  · rw [cvModulate_above hdz base (by omega), cvFrac_full hdz (by omega), mulQ15_one_right]
    rfl
  · rw [cvModulate_below hdz base (by omega), cvFrac_full hdz (by omega), mulQ15_one_right, two_mul]
    rfl

/-! ## The rows of the stage table (43_envelope.md R221, R226 to R229) -/

theorem stageOver_iff_toNat (now : Word) (e : Env) :
    stageOver now e = true ↔ e.dur.toNat ≤ (now - e.start).toNat :=
  (stageOver_iff now e).trans Int.ofNat_le

/-- The progress inside a stage, as the statements write it (43_envelope.md R224). -/
theorem envProgress_eq (now : Word) (e : Env) :
    envProgress now e = (((now - e.start).toNat * 32768 / e.dur.toNat : Nat) : Int) := by
  simp [envProgress, floorDiv, elapsed, unsigned]

theorem attackDuration_eq (s : State) :
    attackDuration false s =
      potDuration ((s.arg.r1.toNat % 256 : Nat) : Int) s.cfg.envTminUs.toNat s.cfg.envTmaxUs.toNat := by
  rw [← pot0_eq]
  rfl

theorem attackDuration_cvmod (s : State) :
    attackDuration true s = cvModulate s.cfg (attackDuration false s) s.arg.r2.toInt := rfl

theorem decayDuration_eq (s : State) :
    decayDuration s =
      potDuration ((s.arg.r1.toNat / 256 % 256 : Nat) : Int) s.cfg.envTminUs.toNat s.cfg.envTmaxUs.toNat := by
  rw [← pot1_eq]
  rfl

theorem envTickOf_trigger (cvmod : Bool) (s : State) : envTickOf true cvmod s = envTrigger cvmod s := rfl

section
variable (cvmod : Bool) {s : State}

theorem envTickOf_idle (hst : s.env.stage = .idle) : envTickOf false cvmod s = envIdle s := by
  simp [envTickOf, hst]

theorem envTickOf_attack (hst : s.env.stage = .attack) : envTickOf false cvmod s = envAttack s := by
  simp [envTickOf, hst]

theorem envTickOf_decay (hst : s.env.stage = .decay) : envTickOf false cvmod s = envDecay s := by
  simp [envTickOf, hst]

end

section
variable {s : State}

theorem envAttack_over (h : s.env.dur.toNat ≤ (s.arg.r0 - s.env.start).toNat) :
    envAttack s = ⟨⟨.decay, 32768, s.arg.r0, u32 (decayDuration s)⟩, false⟩ :=
  if_pos ((stageOver_iff_toNat _ _).mpr h)

theorem envAttack_inside (h : (s.arg.r0 - s.env.start).toNat < s.env.dur.toNat) :
    envAttack s =
      ⟨{ s.env with value := u32 (attackShape (u8ToQ15 (pot2 s.arg.r1)) (envProgress s.arg.r0 s.env)) }, false⟩ :=
  if_neg (mt (stageOver_iff_toNat _ _).mp (Nat.not_le.mpr h))

theorem envDecay_over (h : s.env.dur.toNat ≤ (s.arg.r0 - s.env.start).toNat) :
    envDecay s = ⟨{ s.env with stage := .idle, value := 0 }, true⟩ :=
  if_pos ((stageOver_iff_toNat _ _).mpr h)

theorem envDecay_inside (h : (s.arg.r0 - s.env.start).toNat < s.env.dur.toNat) :
    envDecay s =
      ⟨{ s.env with value := u32 (decayShape (u8ToQ15 (pot2 s.arg.r1)) (envProgress s.arg.r0 s.env)) }, false⟩ :=
  if_neg (mt (stageOver_iff_toNat _ _).mp (Nat.not_le.mpr h))

end

/-! ## The end of the cycle (43_envelope.md R232) -/

theorem envAttack_eoc (s : State) : (envAttack s).eoc = false := by
  unfold envAttack
  split <;> rfl

theorem envDecay_eoc (s : State) : (envDecay s).eoc = stageOver s.arg.r0 s.env := by
  unfold envDecay
  split
  · next h => exact h.symm
  · next h => exact (Bool.eq_false_iff.mpr h).symm

/-- Of the rows of the stage table, only the end of Decay sets eoc. -/
theorem envTickOf_eoc_iff (trig cvmod : Bool) (s : State) :
    (envTickOf trig cvmod s).eoc = true ↔
      trig = false ∧ s.env.stage = .decay ∧ s.env.dur.toNat ≤ (s.arg.r0 - s.env.start).toNat := by
  rw [← stageOver_iff_toNat]
  rcases envTickOf_cases trig cvmod s with ⟨ht, he⟩ | ⟨ht, hst, he⟩ | ⟨ht, hst, he⟩ | ⟨ht, hst, he⟩
  · rw [he]; simp [ht, envTrigger]
  · rw [he]; simp [hst, envAttack_eoc]
  · rw [he]; simp [ht, hst, envDecay_eoc]
  · rw [he]; simp [hst, envIdle]

theorem getLsbD_eoc (eoc : Bool) (st : Stage) : ((flagWord eoc <<< 8) ||| stageCode st).getLsbD 8 = eoc := by
  cases eoc <;> cases st <;> rfl

/-- Settles O42: RES3 bit 8 is the tick's eoc. -/
theorem eocExactlyWhenDecayCompletes : Obligations.EocExactlyWhenDecayCompletes := by
  intro s t trig cvmod hexec
  rw [eq_commandNext (i := .envTick trig cvmod) rfl hexec]
  exact (Bool.eq_iff_iff.mp (getLsbD_eoc _ _)).trans (envTickOf_eoc_iff trig cvmod s)

/-! ## ENV.TICK (43_envelope.md R230, R231) -/

theorem sel_flags_envTick_iff (sel : Sel) (flags : FlagBits) :
    (sel.toNat ≤ Op.envTick.selMax ∧ flags &&& ~~~ Op.envTick.flagMask = 0) ↔ sel = 0 ∧ flags.toNat ≤ 3 := by
  revert sel flags; decide

theorem flagWord_shiftLeft_eight (b : Bool) : flagWord b <<< 8 = if b then 0x100 else 0 := by cases b <;> rfl

/-- Settles O24: the tick's conditions choose the row, and the row gives the engine's next state. -/
theorem envTickFollowsTheStageTable : Obligations.EnvTickFollowsTheStageTable := by
  refine ⟨decodeInvertsEncode (.envTick false false) rfl, decodeInvertsEncode (.envTick true false) rfl,
    decodeInvertsEncode (.envTick false true) rfl, decodeInvertsEncode (.envTick true true) rfl,
    fun sel flags => (isOk_decode_assembleWord .envTick sel flags).trans (sel_flags_envTick_iff sel flags),
    fun s trig cvmod => ⟨(envTickOf trig cvmod s).env, (envTickOf trig cvmod s).eoc, ?_, ?_⟩⟩
  · rw [← flagWord_shiftLeft_eight]
    exact exec_eq_commandNext (i := .envTick trig cvmod) rfl s
  intro now el shapeQ duration x y
  have hx : envProgress s.arg.r0 s.env = x := envProgress_eq _ _
  have hshape : u8ToQ15 (pot2 s.arg.r1) = shapeQ := by rw [pot2_eq]; push_cast; rfl
  have hattack : attackDuration false s = duration (s.arg.r1.toNat % 256) := attackDuration_eq s
  have hdecay : decayDuration s = duration (s.arg.r1.toNat / 256 % 256) := decayDuration_eq s
  refine ⟨?_, ?_, fun ht hst h => ?_, fun ht hst h => ?_, fun ht hst h => ?_, fun ht hst h => ?_, fun ht hst => ?_⟩
  · rintro rfl rfl
    rw [envTickOf_trigger, envTrigger, hattack]
    exact ⟨rfl, rfl⟩
  · rintro rfl rfl
    rw [envTickOf_trigger, envTrigger, attackDuration_cvmod, hattack]
    exact ⟨rfl, rfl⟩
  · rw [ht, envTickOf_attack cvmod hst, envAttack_over h, hdecay]
    exact ⟨rfl, rfl⟩
  · rw [ht, envTickOf_attack cvmod hst, envAttack_inside h, hx, hshape]
    exact ⟨rfl, rfl⟩
  · rw [ht, envTickOf_decay cvmod hst, envDecay_over h]
    exact ⟨rfl, rfl⟩
  · rw [ht, envTickOf_decay cvmod hst, envDecay_inside h, hx, hshape]
    exact ⟨rfl, rfl⟩
  · rw [ht, envTickOf_idle cvmod hst]
    exact ⟨rfl, rfl⟩

end Sys2Proof.Proofs
end

section
/-! SUPPORT. The seed and the quantizer of the noise generator: the PRNG step (O45, O27), the window of a draw (O46),
the nearest note of a scale (O28), and which values a scale keeps (O47, O48). -/

namespace Sys2Proof.Proofs

open Sys2Proof.Machine Sys2Proof.Safety Sys2Proof.Laws

/-! ## The PRNG (44_noise.md R251, R271) -/

/-- Bit i of `x ^ (x << k)` is bit i of x and a lower bit of x, so x is recovered from bit 0 up. -/
theorem eq_of_xor_shiftLeft_eq {n k : Nat} (hk : 0 < k) {x y : BitVec n}
    (h : x ^^^ (x <<< k) = y ^^^ (y <<< k)) : x = y := by
  refine BitVec.eq_of_getLsbD_eq fun i hi => ?_
  induction i using Nat.strong_induction_on with
  | _ i ih =>
    have hbit := congrArg (BitVec.getLsbD · i) h
    simp only [BitVec.getLsbD_xor, BitVec.getLsbD_shiftLeft, hi, decide_true, Bool.true_and] at hbit
    by_cases hik : i < k
    · simpa [hik] using hbit
    · rw [ih (i - k) (by omega) (by omega)] at hbit
      exact Bool.xor_left_inj.mp hbit

/-- Bit i of `x ^ (x >> k)` is bit i of x and a higher bit of x, so x is recovered from the top bit down. -/
theorem eq_of_xor_ushiftRight_eq {n k : Nat} (hk : 0 < k) {x y : BitVec n}
    (h : x ^^^ (x >>> k) = y ^^^ (y >>> k)) : x = y := by
  have hfrom : ∀ d i, n ≤ i + d → x.getLsbD i = y.getLsbD i := by
    intro d
    induction d with
    | zero =>
      intro i hi
      rw [BitVec.getLsbD_of_ge x i hi, BitVec.getLsbD_of_ge y i hi]
    | succ d ih =>
      intro i hi
      have hbit := congrArg (BitVec.getLsbD · i) h
      simp only [BitVec.getLsbD_xor, BitVec.getLsbD_ushiftRight] at hbit
      rw [ih (k + i) (by omega)] at hbit
      exact Bool.xor_left_inj.mp hbit
  exact BitVec.eq_of_getLsbD_eq fun i _ => hfrom n i (by omega)

/-- Settles O45: each of the three shift-and-XOR stages is injective. -/
theorem xorshiftIsInjective : Obligations.XorshiftIsInjective := by
  refine ⟨rfl, fun x y h => ?_⟩
  have hmid := eq_of_xor_shiftLeft_eq (k := 5) (by decide) h
  have hfirst := eq_of_xor_ushiftRight_eq (k := 17) (by decide) hmid
  exact eq_of_xor_shiftLeft_eq (k := 13) (by decide) hfirst

theorem sel_flags_nzDraw_iff (sel : Sel) (flags : FlagBits) :
    (sel.toNat ≤ Op.nzDraw.selMax ∧ flags &&& ~~~ Op.nzDraw.flagMask = 0) ↔ sel = 0 ∧ flags = 0 := by
  revert sel flags; decide

/-- Settles O27. -/
theorem nzDrawStepsTheSeed : Obligations.NzDrawStepsTheSeed :=
  ⟨fun sel flags => (isOk_decode_assembleWord .nzDraw sel flags).trans (sel_flags_nzDraw_iff sel flags),
    decodeInvertsEncode .nzDraw rfl, exec_eq_commandNext (i := .nzDraw) rfl⟩

/-! ## The window (44_noise.md R255) -/

theorem windowHalf_range (pot3 : Int) : 0 ≤ windowHalf pot3 ∧ windowHalf pot3 ≤ 5000 := by
  obtain ⟨h0, h1⟩ := u8ToQ15_range pot3
  exact mulQ15_range (by decide) h0 h1

/-- A draw as the statements write it: the low 12 bits are a remainder. -/
theorem drawValue_eq (w : Int) (r : Word) :
    drawValue w r = 5000 - w + ((r.toNat % 4096 : Nat) : Int) * 2 * w / 4095 := by
  have hlow : (r &&& 0xFFF).toNat = r.toNat % 4096 := Nat.and_two_pow_sub_one_eq_mod r.toNat 12
  rw [drawValue, floorDiv, unsigned, hlow]

/-- Settles O46: the low 12 bits are at most 4095, so the offset into the window is at most its width 2w. -/
theorem drawsFillTheWindow : Obligations.DrawsFillTheWindow := by
  refine ⟨windowHalf_range, fun w r h0 h1 => ?_⟩
  rw [drawValue_eq]
  have hn : ((r.toNat % 4096 : Nat) : Int) ≤ 4095 := by omega
  generalize r.toNat % 4096 = n at hn ⊢
  have hlow : 0 ≤ (n : Int) * (2 * w) := mul_nonneg n.cast_nonneg (by omega)
  have hhigh : (n : Int) * (2 * w) ≤ 4095 * (2 * w) := mul_le_mul_of_nonneg_right hn (by omega)
  rw [mul_assoc]
  refine ⟨by omega, by omega, ?_, ?_⟩
  · rintro rfl
    simp
  · rintro rfl
    push_cast
    omega

/-! ## The scan of a table (44_noise.md R252, R253) -/

/-- For semitone `semi`, `k` goes before `j`: it is nearer, or equally near and not higher. -/
def Precedes (semi k j : Int) : Prop :=
  (semi - k).natAbs < (semi - j).natAbs ∨ ((semi - k).natAbs = (semi - j).natAbs ∧ k ≤ j)

theorem Precedes.refl (semi k : Int) : Precedes semi k k := .inr ⟨rfl, le_rfl⟩

theorem Precedes.trans {semi i j k : Int} (hij : Precedes semi i j) (hjk : Precedes semi j k) : Precedes semi i k := by
  unfold Precedes at *
  omega

/-- Of an ascending table the scan finds the member that precedes all others: the strict comparison lets the earlier of
two equally near ones stand, and the earlier is the lower. -/
theorem nearestMember_spec (semi best : Int) (rest : List Int) (hasc : (best :: rest).Pairwise (· < ·)) :
    nearestMember semi best rest ∈ best :: rest ∧
      ∀ t ∈ best :: rest, Precedes semi (nearestMember semi best rest) t := by
  induction rest generalizing best with
  | nil => simp [nearestMember, Precedes.refl]
  | cons t rest ih =>
    obtain ⟨hbest, htail⟩ := List.pairwise_cons.mp hasc
    obtain ⟨hbt, hbr⟩ := List.forall_mem_cons.mp hbest
    obtain ⟨-, hrest⟩ := List.pairwise_cons.mp htail
    unfold nearestMember absInt
    split
    · next hnear =>
      obtain ⟨hmem, hall⟩ := ih t htail
      have ht : Precedes semi t best := .inl (Int.ofNat_lt.mp hnear)
      exact ⟨List.mem_cons_of_mem _ hmem,
        List.forall_mem_cons.mpr ⟨(hall t List.mem_cons_self).trans ht, hall⟩⟩
    · next hnear =>
      obtain ⟨hmem, hall⟩ := ih best (List.pairwise_cons.mpr ⟨hbr, hrest⟩)
      obtain ⟨hfirst, hothers⟩ := List.forall_mem_cons.mp hall
      have ht : Precedes semi best t := by unfold Precedes; omega
      refine ⟨?_, List.forall_mem_cons.mpr ⟨hfirst, List.forall_mem_cons.mpr ⟨hfirst.trans ht, hothers⟩⟩⟩
      rcases List.mem_cons.mp hmem with h | h
      · rw [h]; exact List.mem_cons_self
      · exact List.mem_cons_of_mem _ (List.mem_cons_of_mem _ h)

/-! ## The note a scale gives (44_noise.md R250, R252) -/

/-- The members of a scale within the octave. -/
def scaleMembers (sc : Scale) : List Int := (scaleTable sc).1 :: (scaleTable sc).2

theorem scaleMembers_ascending (sc : Scale) : (scaleMembers sc).Pairwise (· < ·) := by
  cases sc <;> decide

theorem zero_mem_scaleMembers (sc : Scale) : 0 ∈ scaleMembers sc := by
  cases sc <;> decide

theorem scaleMembers_range {sc : Scale} : ∀ t ∈ scaleMembers sc, 0 ≤ t ∧ t < 12 := by
  cases sc <;> decide

/-- The notes of a scale are the numbers whose semitone within the octave is in its table; the unquantized scale has no
table. -/
theorem isScaleNote_iff {sc : Scale} (h : sc ≠ .unquantized) (k : Int) :
    IsScaleNote sc k ↔ k % 12 ∈ scaleMembers sc := by
  cases sc with
  | unquantized => exact absurd rfl h
  | chromatic =>
    simp only [IsScaleNote, scaleMembers, scaleTable, List.mem_cons, List.not_mem_nil, or_false, true_iff]
    omega
  | _ => exact Iff.rfl

/-- Within the octave, the semitone given is a member or the next octave's tonic, and it precedes each of them. -/
theorem scaleSemitone_spec (sc : Scale) (semi : Int) (hsemi : semi < 12) :
    (scaleSemitone sc semi ∈ scaleMembers sc ∨ scaleSemitone sc semi = 12) ∧ Precedes semi (scaleSemitone sc semi) 12 ∧
      ∀ t ∈ scaleMembers sc, Precedes semi (scaleSemitone sc semi) t := by
  obtain ⟨hmem, hall⟩ := nearestMember_spec semi _ _ (scaleMembers_ascending sc)
  obtain ⟨-, hlt⟩ := scaleMembers_range _ hmem
  unfold scaleSemitone absInt
  dsimp only
  split
  · refine ⟨.inr rfl, .refl _ _, fun t ht => Precedes.trans ?_ (hall t ht)⟩
    unfold Precedes
    omega
  · refine ⟨.inl hmem, ?_, hall⟩
    unfold Precedes
    omega

/-- The semitone given within the octave also precedes every note of the other octaves: those below are no nearer than
the tonic, those above no nearer than the next tonic. -/
theorem scaleSemitone_precedes {sc : Scale} {semi : Int} (h0 : 0 ≤ semi) (h1 : semi < 12) {j : Int}
    (hj : j % 12 ∈ scaleMembers sc) : Precedes semi (scaleSemitone sc semi) j := by
  obtain ⟨-, htonic, hall⟩ := scaleSemitone_spec sc semi h1
  by_cases hbelow : j < 0
  · refine (hall 0 (zero_mem_scaleMembers sc)).trans ?_
    unfold Precedes
    omega
  · by_cases habove : 12 ≤ j
    · refine htonic.trans ?_
      unfold Precedes
      omega
    · have hjmod : j % 12 = j := Int.emod_eq_of_lt (by omega) (by omega)
      exact hall j (hjmod ▸ hj)

theorem scaleNote_chromatic (semis : Int) : scaleNote .chromatic semis = semis := rfl

theorem scaleNote_of_ne_chromatic {sc : Scale} (h : sc ≠ .chromatic) (semis : Int) :
    scaleNote sc semis = semis / 12 * 12 + scaleSemitone sc (semis % 12) := by
  cases sc with
  | chromatic => exact absurd rfl h
  | _ => rfl

section
variable {sc : Scale} (hsc : sc ≠ .unquantized)
include hsc

/-- The semitone number given is a note of the scale. -/
theorem isScaleNote_scaleNote (semis : Int) : IsScaleNote sc (scaleNote sc semis) := by
  by_cases hchrom : sc = .chromatic
  · subst hchrom
    trivial
  · rw [isScaleNote_iff hsc, scaleNote_of_ne_chromatic hchrom]
    obtain ⟨hmem | htonic, -⟩ := scaleSemitone_spec sc (semis % 12) (by omega)
    · obtain ⟨h0, h1⟩ := scaleMembers_range _ hmem
      have hmod : (semis / 12 * 12 + scaleSemitone sc (semis % 12)) % 12 = scaleSemitone sc (semis % 12) := by omega
      rwa [hmod]
    · have hmod : (semis / 12 * 12 + scaleSemitone sc (semis % 12)) % 12 = 0 := by omega
      rw [hmod]
      exact zero_mem_scaleMembers sc

/-- The semitone number given precedes every note of the scale: both are moved down to the octave of `semis`. -/
theorem scaleNote_precedes (semis : Int) {j : Int} (hj : IsScaleNote sc j) : Precedes semis (scaleNote sc semis) j := by
  by_cases hchrom : sc = .chromatic
  · subst hchrom
    rw [scaleNote_chromatic]
    unfold Precedes
    omega
  · have hmod : (j - semis / 12 * 12) % 12 = j % 12 := by omega
    have hmem : (j - semis / 12 * 12) % 12 ∈ scaleMembers sc := hmod ▸ (isScaleNote_iff hsc j).mp hj
    have h := scaleSemitone_precedes (semi := semis % 12) (by omega) (by omega) hmem
    rw [scaleNote_of_ne_chromatic hchrom]
    unfold Precedes at *
    omega

/-- A note of the scale is its own nearest note. -/
theorem scaleNote_of_isScaleNote {k : Int} (hk : IsScaleNote sc k) : scaleNote sc k = k := by
  have h := scaleNote_precedes hsc k hk
  unfold Precedes at h
  omega

/-- The semitones 0 and 120 are tonics, so no semitone between them has its nearest note outside. -/
theorem scaleNote_range {semis : Int} (h0 : 0 ≤ semis) (h1 : semis ≤ 120) :
    0 ≤ scaleNote sc semis ∧ scaleNote sc semis ≤ 120 := by
  have hlow := scaleNote_precedes hsc semis ((isScaleNote_iff hsc 0).mpr (zero_mem_scaleMembers sc))
  have hhigh := scaleNote_precedes hsc semis ((isScaleNote_iff hsc 120).mpr (zero_mem_scaleMembers sc))
  unfold Precedes at hlow hhigh
  omega

end

/-! ## The quantizer in mV (44_noise.md R252, R254) -/

theorem note_range {k : Int} (h0 : 0 ≤ k) (h1 : k ≤ 120) : 0 ≤ note k ∧ note k ≤ 10000 := by
  unfold note floorDiv
  omega

/-- The rounding of a note to mV is undone by the rounding to a semitone. -/
theorem semitoneOf_note (k : Int) : semitoneOf (note k) = k := by
  unfold semitoneOf note floorDiv
  omega

theorem clamp_of_range {v lo hi : Int} (hlo : lo ≤ v) (hhi : v ≤ hi) : clamp v lo hi = v := by
  rw [clamp_eq_max_min (hlo.trans hhi), min_eq_left hhi, max_eq_right hlo]

theorem quantize_unquantized (v : Int) : quantize v .unquantized = clamp v 0 10000 := rfl

/-- The semitone number that quantizing gives (`quantize_eq_note`). -/
def quantizedNote (v : Int) (sc : Scale) : Int := scaleNote sc (semitoneOf (clamp v 0 10000))

section
variable {sc : Scale} (hsc : sc ≠ .unquantized)
include hsc

theorem quantizedNote_range (v : Int) : 0 ≤ quantizedNote v sc ∧ quantizedNote v sc ≤ 120 := by
  obtain ⟨h0, h1⟩ := clamp_range (lo := 0) (hi := 10000) (by decide) v
  refine scaleNote_range hsc ?_ ?_
  · unfold semitoneOf floorDiv
    omega
  · unfold semitoneOf floorDiv
    omega

/-- The clamp of the result never acts: a value of the DAC domain has its nearest note in the domain. -/
theorem quantize_eq_note (v : Int) : quantize v sc = note (quantizedNote v sc) := by
  obtain ⟨h0, h1⟩ := quantizedNote_range hsc v
  obtain ⟨hlow, hhigh⟩ := note_range h0 h1
  cases sc with
  | unquantized => exact absurd rfl hsc
  | _ => exact clamp_of_range hlow hhigh

end

/-- Every scale keeps its notes: such a value is in the DAC domain, and its semitone is a note of the scale. -/
theorem quantize_note {sc : Scale} {k : Int} (h0 : 0 ≤ k) (h1 : k ≤ 120) (hk : IsScaleNote sc k) :
    quantize (note k) sc = note k := by
  obtain ⟨hlow, hhigh⟩ := note_range h0 h1
  have hclamp : clamp (note k) 0 10000 = note k := clamp_of_range hlow hhigh
  by_cases hsc : sc = .unquantized
  · rw [hsc, quantize_unquantized, hclamp]
  · rw [quantize_eq_note hsc, quantizedNote, hclamp, semitoneOf_note, scaleNote_of_isScaleNote hsc hk]

/-- Settles O47. -/
theorem scaleNotesAreFixedPoints : Obligations.ScaleNotesAreFixedPoints := fun _ _ => quantize_note

/-- Settles O48: what a scale gives is one of its notes in 0..120. -/
theorem quantizeIsIdempotent : Obligations.QuantizeIsIdempotent := by
  intro v sc
  by_cases hsc : sc = .unquantized
  · rw [hsc, quantize_unquantized, quantize_unquantized]
    obtain ⟨hlow, hhigh⟩ := clamp_range (lo := 0) (hi := 10000) (by decide) v
    exact clamp_of_range hlow hhigh
  · obtain ⟨h0, h1⟩ := quantizedNote_range hsc v
    rw [quantize_eq_note hsc v]
    exact quantize_note h0 h1 (isScaleNote_scaleNote hsc _)

/-! ## NZ.QUANT (44_noise.md R272) -/

theorem sel_flags_nzQuant_iff (sel : Sel) (flags : FlagBits) :
    (sel.toNat ≤ Op.nzQuant.selMax ∧ flags &&& ~~~ Op.nzQuant.flagMask = 0) ↔ sel.toNat ≤ 5 ∧ flags = 0 := by
  revert sel flags; decide

theorem scaleOfIndex_ne_unquantized {sel : Sel} (h : sel ≠ 0) : scaleOfIndex sel.toNat ≠ .unquantized := by
  revert sel; decide

/-- Settles O28: in a scale other than the unquantized one the value is that of the note which precedes all others. -/
theorem nzQuantGivesTheNearestNote : Obligations.NzQuantGivesTheNearestNote := by
  refine ⟨fun sel flags => (isOk_decode_assembleWord .nzQuant sel flags).trans (sel_flags_nzQuant_iff sel flags),
    fun sel h => ?_, fun s sel h => ⟨_, exec_nzQuant_legal h s, scaleIndex_scaleOfIndex h, ?_, fun hsel => ?_⟩⟩
  · rw [← encode_nzQuant]
    exact decodeInvertsEncode (.nzQuant sel) (decide_eq_true h)
  · rintro rfl
    exact clamp_eq_max_min (by decide)
  · have hsc := scaleOfIndex_ne_unquantized hsel
    have hclamp : clamp (sArg0 s) 0 10000 = max 0 (min s.arg.r0.toInt 10000) := clamp_eq_max_min (by decide)
    rw [← hclamp]
    exact ⟨quantizedNote (sArg0 s) _, quantize_eq_note hsc _, isScaleNote_scaleNote hsc _,
      fun _ => scaleNote_precedes hsc _⟩

end Sys2Proof.Proofs
end

section
/-! SUPPORT. NZ.TICK: a tick with HOLD (O25, O50), the channels' turns of a tick without HOLD (O26), and what a channel
that waits for CLK keeps (O49). -/

namespace Sys2Proof.Proofs

open Sys2Proof.Machine Sys2Proof.Safety Sys2Proof.Laws

/-! ## HOLD (44_noise.md R258, R262) -/

theorem selectedScale_index (w : Word) : scaleIndex (selectedScale w) = w.toNat / 65536 % 256 * 6 / 256 := by
  have hpot : (byteLane w 2).toNat = w.toNat / 65536 % 256 := Int.ofNat_inj.mp (pot2_eq w)
  rw [selectedScale, hpot, Nat.shiftRight_eq_div_pow]
  exact scaleIndex_scaleOfIndex (by omega)

/-- Settles O25: with HOLD both fired flags are 0. -/
theorem nzTickWithHoldSelectsTheScale : Obligations.NzTickWithHoldSelectsTheScale := by
  intro s clk index pulse
  refine ⟨selectedScale s.arg.r1, selectedScale_index _, ?_⟩
  have hflags : tickFlags (selectedScale s.arg.r1) false false pulse = BitVec.ofNat 32 (index * 256 + pulse.toNat) := by
    rw [tickFlags_eq, selectedScale_index, Bool.toNat_false, zero_mul, zero_mul, add_zero, add_zero]
  rw [← hflags]
  exact exec_eq_commandNext (i := .nzTick clk true) rfl s

theorem getLsbD_pulse (sc : Scale) (firedB firedA pulse : Bool) :
    (tickFlags sc firedB firedA pulse).getLsbD 0 = pulse := by
  simp [tickFlags, flagWord]

/-- Settles O50: the pulse output of a tick with HOLD is the armed flag while the deadline is ahead. -/
theorem pulseEndsAtItsDeadline : Obligations.PulseEndsAtItsDeadline := by
  obtain ⟨-, hactive⟩ := timeArithmeticSurvivesWrap
  intro s clk
  refine ⟨_, exec_eq_commandNext (i := .nzTick clk true) rfl s, fun d n hduty hd hn => ?_, getLsbD_pulse _ _ _ _,
    fun harmed => ?_⟩
  · have hpulse : pulseOf s.arg.r0 s.nz = true ↔ s.nz.armed = true ∧ n < d := by
      rw [pulseOf, hd, hn, Bool.and_eq_true, hactive d n hduty]
    exact (Bool.eq_iff_iff.mp (getLsbD_pulse _ _ _ _)).trans hpulse
  · have hpulse : pulseOf s.arg.r0 s.nz = false := by rw [pulseOf, harmed, Bool.false_and]
    exact hpulse

/-! ## When a channel fires (44_noise.md R256) -/

/-- A channel's test as the statements write it. -/
theorem nzFires_eq (cfg : CfgRegs) (clk : Bool) (now last : Word) (speed raw : Nat) :
    nzFires cfg clk now last speed raw =
      if cfg.nzExtThresh.toNat < raw then clk
      else decide (potDuration speed cfg.nzTminUs.toNat cfg.nzTmaxUs.toNat ≤ (now - last).toNat) :=
  if_congr Int.ofNat_lt rfl rfl

theorem firesA_eq (clk : Bool) (s : State) :
    firesA clk s =
      nzFires s.cfg clk s.arg.r0 s.nz.last0 (s.arg.r1.toNat % 256 : Nat) (s.arg.r2.toNat % 65536 : Nat) := by
  rw [firesA, pot0_eq, rawLow_eq]

theorem firesB_eq (clk : Bool) (s : State) :
    firesB clk s =
      nzFires s.cfg clk s.arg.r0 s.nz.last1 (s.arg.r1.toNat / 256 % 256 : Nat) (s.arg.r2.toNat / 65536 : Nat) := by
  rw [firesB, pot1_eq, rawHigh_eq]

theorem firesA_external {s : State} (h : s.cfg.nzExtThresh.toNat < s.arg.r2.toNat % 65536) (clk : Bool) :
    firesA clk s = clk := by
  rw [firesA_eq, nzFires_eq, if_pos h]

theorem firesB_external {s : State} (h : s.cfg.nzExtThresh.toNat < s.arg.r2.toNat / 65536) (clk : Bool) :
    firesB clk s = clk := by
  rw [firesB_eq, nzFires_eq, if_pos h]

/-! ## One channel's turn (44_noise.md R257, R260) -/

section
variable (cfg : CfgRegs) (now : Word) (w : Int) (x : NoiseSeed)

theorem tickA_false : tickA false cfg now w x = x := rfl

theorem tickA_true : tickA true cfg now w x = resampleA cfg now w x := rfl

theorem tickB_false : tickB false now w x = x := rfl

theorem tickB_true : tickB true now w x = resampleB now w x := rfl

end

theorem armPulse_eq (cfg : CfgRegs) (now q : Word) (nz : Noise) :
    armPulse cfg now q nz =
      { nz with
        armed := decide (q ≠ nz.cur0) || nz.armed
        armedUntil := if decide (q ≠ nz.cur0) then now + cfg.nzPulseUs else nz.armedUntil } := by
  by_cases h : q = nz.cur0 <;> simp [armPulse, h]

theorem sel_flags_nzTick_iff (sel : Sel) (flags : FlagBits) :
    (sel.toNat ≤ Op.nzTick.selMax ∧ flags &&& ~~~ Op.nzTick.flagMask = 0) ↔ sel = 0 ∧ flags.toNat ≤ 3 := by
  revert sel flags; decide

/-- Settles O26: the tests of both channels are those of the statement, and each channel that fires takes one sample. -/
theorem nzTickResamplesFiringChannels : Obligations.NzTickResamplesFiringChannels := by
  refine ⟨decodeInvertsEncode (.nzTick false false) rfl, decodeInvertsEncode (.nzTick true false) rfl,
    decodeInvertsEncode (.nzTick false true) rfl, decodeInvertsEncode (.nzTick true true) rfl,
    fun sel flags => (isOk_decode_assembleWord .nzTick sel flags).trans (sel_flags_nzTick_iff sel flags), ?_⟩
  intro s clk now fires fa fb w sample seedA seedB curA curB changed deadline pulse
  have hfa : firesA clk s = fa := by rw [firesA_eq, nzFires_eq]
  have hfb : firesB clk s = fb := by rw [firesB_eq, nzFires_eq]
  have hw : windowHalf (pot2 s.arg.r1) = w := by rw [pot2_eq]; rfl
  have hsample : ∀ x : NoiseSeed, x.nz.scale = s.nz.scale → nextSample w x = sample (xorshift x.seed) := by
    intro x hscale
    rw [nextSample, hscale, drawValue_eq]
    rfl
  calc exec (.nzTick clk false) s
    _ = .next (storeNoise (nzSample clk s) (firesB clk s) (firesA clk s) s) := exec_eq_commandNext rfl s
    _ = .next (storeNoise (tickB fb now w (tickA fa s.cfg now w ⟨s.nz, s.cfg.nzSeed⟩)) fb fa s) := by
      rw [nzSample, hfa, hfb, hw]
    _ = _ := by
      rw [← tickFlags_eq]
      clear_value fa fb w sample
      cases fa with
      | false =>
        cases fb with
        | false => rfl
        | true =>
          rw [tickB_true, tickA_false, resampleB, hsample _ rfl]
          rfl
      | true =>
        rw [tickA_true, resampleA, hsample _ rfl, armPulse_eq]
        cases fb with
        | false => rfl
        | true =>
          rw [tickB_true, resampleB, hsample _ rfl]
          rfl

/-! ## What a channel that does not fire keeps (44_noise.md R257) -/

section
variable (fires : Bool) (cfg : CfgRegs) (now : Word) (w : Int) (x : NoiseSeed)

theorem tickA_keeps_channelB :
    (tickA fires cfg now w x).nz.cur1 = x.nz.cur1 ∧ (tickA fires cfg now w x).nz.last1 = x.nz.last1 := by
  cases fires with
  | false => exact ⟨rfl, rfl⟩
  | true =>
    rw [tickA_true, resampleA, armPulse_eq]
    exact ⟨rfl, rfl⟩

theorem tickB_keeps_channelA :
    (tickB fires now w x).nz.cur0 = x.nz.cur0 ∧ (tickB fires now w x).nz.last0 = x.nz.last0 := by
  cases fires <;> exact ⟨rfl, rfl⟩

end

theorem nzBeforePulse_noHold (clk : Bool) (s : State) : nzBeforePulse clk false s = nzSample clk s := rfl

section
variable {clk : Bool} (hold : Bool) {s : State}

theorem nzBeforePulse_keeps_channelA (h : firesA clk s = false) :
    (nzBeforePulse clk hold s).nz.cur0 = s.nz.cur0 ∧ (nzBeforePulse clk hold s).nz.last0 = s.nz.last0 := by
  cases hold with
  | true => exact ⟨rfl, rfl⟩
  | false =>
    rw [nzBeforePulse_noHold, nzSample, h, tickA_false]
    exact tickB_keeps_channelA _ _ _ _

theorem nzBeforePulse_keeps_channelB (h : firesB clk s = false) :
    (nzBeforePulse clk hold s).nz.cur1 = s.nz.cur1 ∧ (nzBeforePulse clk hold s).nz.last1 = s.nz.last1 := by
  cases hold with
  | true => exact ⟨rfl, rfl⟩
  | false =>
    rw [nzBeforePulse_noHold, nzSample, h, tickB_false]
    exact tickA_keeps_channelB _ _ _ _ _

theorem nzBeforePulse_keeps_seed (ha : firesA clk s = false) (hb : firesB clk s = false) :
    (nzBeforePulse clk hold s).seed = s.cfg.nzSeed := by
  cases hold with
  | true => rfl
  | false =>
    rw [nzBeforePulse_noHold, nzSample, ha, hb, tickA_false, tickB_false]

end

/-- Settles O49: over the threshold a channel fires as CLK says, and the rest of the tick leaves it alone. -/
theorem externalChannelsWaitForTheClock : Obligations.ExternalChannelsWaitForTheClock := fun s hold =>
  ⟨_, exec_eq_commandNext (i := .nzTick false hold) rfl s,
    fun ha => nzBeforePulse_keeps_channelA hold (firesA_external ha false),
    fun hb => nzBeforePulse_keeps_channelB hold (firesB_external hb false),
    fun ha hb => nzBeforePulse_keeps_seed hold (firesA_external ha false) (firesB_external hb false)⟩

end Sys2Proof.Proofs
end

section
/-! SUPPORT. The errors of one access (O54), and the step with no access pending (O7). -/

namespace Sys2Proof.Proofs

open Sys2Proof.Machine Sys2Proof.Safety Sys2Proof.Laws

/-! ## The idle step (60_exceptions.md R307) -/

/-- Settles O7. -/
theorem idleBlockHoldsItsState : Obligations.IdleBlockHoldsItsState := by
  intro s h
  rcases performNext_cases s with ⟨-, he⟩ | ⟨a, rest, hp, -⟩
  · exact he
  · rw [h] at hp
    exact absurd hp nofun

/-! ## Writes that raise no error (10_state.md R32) -/

theorem writeNext_errCmd (r : Reg) (v : Word) (s : State) : (writeNext r v s).errCmd = s.errCmd := by
  cases r <;> rfl

theorem writeNext_errAddr (r : Reg) (v : Word) (s : State) : (writeNext r v s).errAddr = s.errAddr := by
  cases r <;> rfl

/-- A write to STATUS only clears bits, so it records no error. -/
theorem writeNext_status_zero {s : State} (h : s.status = 0) (r : Reg) (v : Word) : (writeNext r v s).status = 0 := by
  by_cases hr : r = .status
  · subst hr
    calc statusWrite v s.status
      _ = statusWrite v 0 := by rw [h]
      _ = 0 := BitVec.zero_and
  · rw [writeNext_status hr, h]

/-! ## One error for each access (60_exceptions.md R294, R295) -/

/-- Settles O54: only an illegal command and a bad access record an error, each its own bit and its own register; a legal
access and the command it runs keep the error registers. -/
theorem oneAccessRaisesOneError : Obligations.OneAccessRaisesOneError := by
  intro s t h0 hreset hstep
  have hillegal : s.status ||| 1 = 1 := by rw [h0]; rfl
  have hbad : s.status ||| 2 = 2 := by rw [h0]; rfl
  cases step_stepTo hstep with
  | idle => exact .inl ⟨h0, rfl, rfl⟩
  | read => exact .inl ⟨h0, rfl, rfl⟩
  | @write r v rest =>
    have hp0 : (setPending rest s).status = 0 := h0
    exact .inl ⟨writeNext_status_zero hp0 r v, writeNext_errCmd _ _ _, writeNext_errAddr _ _ _⟩
  | @command w rest i =>
    have hk := commandNext_keeps_hostSide i (storeCmd w (setPending rest s))
    exact .inl ⟨hk.status.trans h0, hk.errCmd, hk.errAddr⟩
  | illegalCommand =>
    rw [raiseIllegalCommand_eq]
    exact .inr (.inl ⟨hillegal, rfl, rfl⟩)
  | badRead =>
    rw [raiseBadAccess_eq]
    exact .inr (.inr ⟨hbad, rfl, rfl⟩)
  | badWrite =>
    rw [raiseBadAccess_eq]
    exact .inr (.inr ⟨hbad, rfl, rfl⟩)
  | reset hr => exact absurd (by rw [hr]; rfl) hreset

end Sys2Proof.Proofs
end

section
/-! SUPPORT. Asserted reset (O14), and ticks of the envelope inside a stage, which leave no trace in a later tick
(O44). -/

namespace Sys2Proof.Proofs

open Sys2Proof.Machine Sys2Proof.Safety Sys2Proof.Laws

/-! ## Asserted reset (70_reset_and_hazards.md R310) -/

theorem step_reset {s : State} {rest : List Access} (h : s.pending = .reset :: rest) :
    step s = .next (resetBlock (setPending rest s)) := step_cons h

/-- Settles O14: a pending reset resets the block and is taken off the list. -/
theorem assertedResetRestoresEverything : Obligations.AssertedResetRestoresEverything := fun s rest =>
  step_reset (s := setPending (.reset :: rest) s) rfl

/-! ## Ticks inside a stage (70_reset_and_hazards.md R331; 43_envelope.md R224) -/

/-- Inside Attack or Decay a tick without a trigger changes the envelope's value and keeps its stage, start and
duration. -/
theorem envTickOf_inside_env (cvmod : Bool) {s : State} (hst : s.env.stage ≠ .idle)
    (hin : (s.arg.r0 - s.env.start).toNat < s.env.dur.toNat) :
    ∃ v, (envTickOf false cvmod s).env = { s.env with value := v } := by
  rcases envTickOf_cases false cvmod s with ⟨ht, -⟩ | ⟨-, -, he⟩ | ⟨-, -, he⟩ | ⟨-, hidle, -⟩
  · exact absurd ht nofun
  · exact ⟨_, by rw [he, envAttack_inside hin]⟩
  · exact ⟨_, by rw [he, envDecay_inside hin]⟩
  · exact absurd hidle hst

/-- No row of the stage table reads the envelope's value or the results, so a tick gives the same from any of them. -/
theorem envTickOf_congr (trig cvmod : Bool) {s t : State} {v : Word} (harg : t.arg = s.arg) (hcfg : t.cfg = s.cfg)
    (henv : t.env = { s.env with value := v }) : envTickOf trig cvmod t = envTickOf trig cvmod s := by
  have hstage : t.env.stage = s.env.stage := by rw [henv]
  rcases envTickOf_cases trig cvmod s with ⟨rfl, he⟩ | ⟨rfl, hst, he⟩ | ⟨rfl, hst, he⟩ | ⟨rfl, hst, he⟩
  · rw [he, envTickOf_trigger, envTrigger, attackDuration, sArg2, harg, hcfg]
    rfl
  · rw [he, envTickOf_attack cvmod (hstage.trans hst), envAttack, decayDuration, harg, hcfg, henv]
    rfl
  · rw [he, envTickOf_decay cvmod (hstage.trans hst), envDecay, harg, henv]
    rfl
  · rw [he, envTickOf_idle cvmod (hstage.trans hst), envIdle, henv]
    rfl

/-- A tick overwrites what the tick before it wrote: the engine's state and the results. -/
theorem storeEnv_storeEnv (x y : EnvTickResult) (a : Quad) (s : State) :
    storeEnv y { storeEnv x { s with arg := a } with arg := s.arg } = storeEnv y s := rfl

/-- A tick inside the stage, with any operands, changes nothing that the next tick reads. -/
theorem envTickOf_after_inside (c c' : Bool) {s : State} {a : Quad} (hst : s.env.stage ≠ .idle)
    (hin : (a.r0 - s.env.start).toNat < s.env.dur.toNat) :
    envTickOf false c' { storeEnv (envTickOf false c { s with arg := a }) { s with arg := a } with arg := s.arg } =
      envTickOf false c' s := by
  obtain ⟨v, hv⟩ := envTickOf_inside_env c (s := { s with arg := a }) hst hin
  exact envTickOf_congr false c' rfl rfl hv

/-- Settles O44: from the state the extra tick leaves, the later tick gives the same and overwrites what it wrote. -/
theorem envValueDependsOnlyOnNow : Obligations.EnvValueDependsOnlyOnNow := by
  intro s now c c' hst hin
  refine ⟨_, _, exec_eq_commandNext rfl _, exec_eq_commandNext rfl s, ?_⟩
  rw [exec_eq_commandNext rfl]
  simp only [commandNext]
  rw [envTickOf_after_inside c c' hst hin, storeEnv_storeEnv]

end Sys2Proof.Proofs
end
